-- ==== Sys2Proof/Word.lean ====
section
/-! DEFINITION. The word types of the model and the type of its sparse maps: what spec/00_scope.md calls
bytes, 32-bit words and 64-bit words, and a list of key and value pairs with keys strictly rising. -/

namespace Sys2Proof

/-- One byte of a packet, a structure in memory or HBM. -/
abbrev Byte := BitVec 8

/-- One 32-bit register word (R7). -/
abbrev Word := BitVec 32

/-- One 64-bit register value (R7, R8). -/
abbrev DWord := BitVec 64

/-- A sparse map from natural keys, as plain data: pairs in strictly rising key order. -/
abbrev SMap (α : Type) := List (Nat × α)

end Sys2Proof
end

