-- ==== Sys2Proof/Syntax.lean ====
section
/-! DEFINITION. The commands of the block: one constructor of Instr for each row of spec/opcode_table.json, with the
operands of the row's step (what arrives from outside, or which object the step concerns). -/

namespace Sys2Proof

/-- A transport packet: the header of Table 4-1 and its payload (R109, R111). Reserved bits are ignored (R5). -/
structure Kmt where
  opcode : Nat := 0
  status : Nat := 0
  load : Nat := 0
  rsp : Bool := false
  rtx : Bool := false
  cmb : Bool := false
  comp : Nat := 0
  len : Nat := 0
  job : Nat := 0
  src : Nat := 0
  dst : Nat := 0
  tag : Nat := 0
  space : Nat := 0
  chan : Nat := 0
  allch : Bool := false
  addr : Nat := 0
  payload : List Byte := []
  deriving DecidableEq, Repr

/-- How the FCS of a received frame came out: correct, stomped (R99) or otherwise wrong. -/
inductive Fcs where
  | good | stomped | bad
  deriving DecidableEq, Repr

/-- What MACsec validation found on a received frame (R75, R76). -/
inductive Sec where
  | absent | valid | invalid
  deriving DecidableEq, Repr

/-- The paths by which a register is reached, each with its own R8 latch (R469, R471, R497). -/
inductive RegPath where
  | cmd
  | mgmt (sess : Nat)
  | capsule
  | smbus
  | readout
  deriving DecidableEq, Repr

/-- How a boot stage that took time ended (R447, Table 16-2). `err` is the ERR code of Table 16-8. -/
inductive BootResult where
  | ok
  | fail (err : Nat)
  deriving DecidableEq, Repr

/-- A PTP frame as the boundary clock uses it (R79 to R81). -/
structure PtpMsg where
  /-- The frame comes from the port's current or new parent. -/
  parent : Bool := false
  /-- Measured offset of the timebase from the parent, in ns. -/
  offset : Int := 0
  /-- The servo has settled on the parent. -/
  locked : Bool := false
  deriving DecidableEq, Repr

/-- A lane control marker (Table 2-8). `crcOk`: MCRC verified. -/
structure Marker where
  mask : Nat := 0
  switchCw : Nat := 0
  crcOk : Bool := true
  deriving DecidableEq, Repr

/-- Why a receiving lane failed (R63), in the cause codes of Table 17-11. -/
inductive LaneCause where
  | cdr | align | symbols
  deriving DecidableEq, Repr

/-- A PLAIN Ethernet frame (R86, R104). -/
structure PlainFrame where
  dstMac : Nat := 0
  srcMac : Nat := 0
  etype : Nat := 0
  /-- Priority code point of an 802.1Q tag. -/
  pcp : Option Nat := none
  len : Nat := 64
  bytes : List Byte := []
  deriving DecidableEq, Repr

/-- A command frame (R337 to R340): encapsulation, addresses and the bytes from the command link header on. -/
structure CmdFrame where
  udp : Bool := false
  srcMac : Nat := 0
  dstMac : Nat := 0
  ipv6 : Bool := false
  srcIp : Nat := 0
  dstIp : Nat := 0
  srcPort : Nat := 0
  vlan : Option Nat := none
  /-- An IP fragment, or IPv4 options (R339). -/
  ipOdd : Bool := false
  /-- UDP checksum: absent or correct. -/
  udpSumOk : Bool := true
  fcsOk : Bool := true
  /-- Command link header (16 bytes), command packet, CRC-32C (4 bytes). -/
  bytes : List Byte := []
  deriving DecidableEq, Repr

/-- Header of a message in a management session (R381 to R383). `tagOk`: the GCM tag verified. -/
structure MgmtHdr where
  sess : Nat := 0
  seq : Nat := 0
  tagOk : Bool := true
  deriving DecidableEq, Repr

/-- A firmware image (Table 13-4). -/
structure Image where
  magic : Nat := 0x4B544649
  iver : Nat := 1
  svn : Nat := 0
  bodyLen : Nat := 0
  bodyDigest : List Byte := []
  version : List Byte := []
  pubkey : List Byte := []
  sig : List Byte := []
  /-- Header bytes 0 to 1,375, over which the signature and measurement 2 run. -/
  hdr : List Byte := []
  body : List Byte := []
  /-- The reserved fields of the header are zero (R5). -/
  resvOk : Bool := true
  deriving DecidableEq, Repr

/-- A management anchor of a capsule (R384). -/
structure Anchor where
  key : List Byte := []
  /-- Rights letters of Table 13-6: R W A K P C O as bits 0 to 6. -/
  rights : Nat := 0
  comps : Nat := 0
  deriving DecidableEq, Repr

/-- A configuration capsule (R379): the body's register writes, anchors and addresses, and its signature. -/
structure Capsule where
  capSvn : Nat := 0
  minFwSvn : Nat := 0
  writes : List (Nat × Word) := []
  anchors : List Anchor := []
  ipv4 : Nat := 0
  ipv6 : Nat := 0
  /-- Header and body as bytes, over which the signature runs. -/
  bytes : List Byte := []
  sig : List Byte := []
  resvOk : Bool := true
  deriving DecidableEq, Repr

/-- Engine units and Haul units are numbered apart (R25). -/
inductive UKind where
  | eng | haul
  deriving DecidableEq, Repr

/-- The commands of the block, in the order of spec/opcode_table.json. -/
inductive Instr where
  /-- PWR_OK_FALL (R444): PWR_OK going low holds the Talik in cold reset whatever PORST_N does. -/
  | pwrOkFall
  /-- PORST_N_ASSERT (R457): A filtered low level on PORST_N starts a device cold reset. -/
  | porstNAssert
  /-- INTERNAL_RESET_END (R445): Internal reset ends at the later of PORST_N release and PWR_OK + 1 ms; the boot ROM starts, drives HOST_RDY low and samples the SMBus address. -/
  | internalResetEnd (smbAddr : Nat)
  /-- BROWN_OUT (R491): VDD_CORE, VDD_HUT or VDD_IO18 below 90 % for 2 µs makes the Talik act as if PWR_OK had fallen. -/
  | brownOut
  /-- CORE_RST_N_ASSERT (R458): A filtered low level on CORE_RST_N starts a device warm reset, which is held at its step 4. -/
  | coreRstNAssert
  /-- CORE_RST_N_RELEASE (R458): The rising edge of CORE_RST_N lets the warm reset continue with step 5. -/
  | coreRstNRelease
  /-- FRZ_N_FALL (R461): A filtered falling edge of FRZ_N stops every non-Hut clock and puts the device in BIVOUAC. -/
  | frzNFall
  /-- REFCLK_CHECK (R446): The periodic count of each reference clock against the internal oscillator updates CLK_REF_STATUS and acts on a missing reference. -/
  | refclkCheck (mgt core : Bool) (sd : Nat)
  /-- BOOT_STAGE_COMPLETE (R447): A boot stage (PUF, IMAGE, FW, CAPSULE, CREST and so on) that took time ends, and the next stage starts or the stage's failure action is taken. -/
  | bootStageComplete (r : BootResult)
  /-- FULL_ENTRY (R451): Once self-test has passed and the timebase is locked or the wait has passed, the firmware takes the device to FULL and retrains the ports at 802.3dj. -/
  | fullEntry
  /-- MGMT_LINK_TRY (R453): In recovery, the boot ROM switches the management port between 10GBASE-R and SGMII every 100 ms until a link forms. -/
  | mgmtLinkTry (linked : Bool)
  /-- HUT_RST_CTL_COLD (R459): A keyed management write of HUT_RST_CTL.COLD requests a device cold reset. -/
  | hutRstCtlCold (h : MgmtHdr) (v : Word)
  /-- HUT_RST_CTL_WARM (R459): A keyed management write of HUT_RST_CTL.WARM requests a device warm reset, unless a boot is still before BASE_CAMP. -/
  | hutRstCtlWarm (h : MgmtHdr) (v : Word)
  /-- RESET_DELAY_EXPIRY (R459): The 10 µs after the reply to a reset request, or after a recovery IMAGE_WRITE, expires and the reset begins. -/
  | resetDelayExpiry
  /-- HUT_WATCHDOG (R415): The Hut watchdog expires and the control cores restart from the verified image while the Crest hardware continues. -/
  | hutWatchdog
  /-- THERM_SAMPLE (R479): The 100 µs temperature sample sets warning bits and, on two samples over the limit, trips THERM_TRIP_N and stops the Talik. -/
  | thermSample (dies : List Int) (sts : List Nat)
  /-- RIDGE_LINK_FAILURE (R417): The failure of a Ridge link makes the Talik stop itself. -/
  | ridgeLinkFailure
  /-- CREST_PLL_LOCK_LOSS (R417): A Crest PLL losing lock, for example through a lost REFCLK_CORE, makes the Talik stop itself. -/
  | crestPllLockLoss (crest : Nat)
  /-- HBM_CONTROLLER_FAILURE (R417): A failed HBM controller makes the Talik stop itself. -/
  | hbmControllerFailure
  /-- PWR_EST_TICK (R480): Every 1 ms the Talik updates the per-block power estimates of CLK_PWR_EST_b. -/
  | pwrEstTick (est : List Nat)
  /-- PTP_EVENT_MESSAGE (R79): A PTP frame is timestamped and passed to the Hut boundary clock, which slews or steps the timebase and may raise OFFSET_ALARM. -/
  | ptpEventMessage (lp : Nat) (m : PtpMsg)
  /-- LLDP_FRAME (R46): An LLDP frame received on a port is passed to the Hut in TC7. -/
  | lldpFrame (lp : Nat) (bytes : List Byte)
  /-- PORT_CFG_WRITE (R398): A write of PORT_CFG, PORT_LCFG or PORT_KMT_CFG is checked against the port rules and either applied or refused with CFG_REJ set. -/
  | portCfgWrite (path : RegPath) (addr : Nat) (v : Word)
  /-- PORT_CTL_RETRAIN (R457): A write of PORT_CTL.RETRAIN retrains one logical port as a DOWN would, with no flap penalty and no fault record. -/
  | portCtlRetrain (path : RegPath) (port : Nat) (v : Word)
  /-- PCS_LOCK (R61): Training ends with PCS lock, and a KMT logical port enters INIT and starts sending LINKCTL INIT. -/
  | pcsLock (lp : Nat)
  /-- INIT_TIMER (R61): The INIT interval (1 µs, or 1 ms in NO_KMT_PEER) expires and LINKCTL INIT is sent again. -/
  | initTimer (lp : Nat)
  /-- NO_KMT_PEER_TIMEOUT (R61): No valid INIT arrives within 1 ms of PCS lock, and the port enters NO_KMT_PEER. -/
  | noKmtPeerTimeout (lp : Nat)
  /-- LINKCTL_INIT (R61): A received LINKCTL INIT is validated and answered with INIT_ACK, and may make the port ACTIVE or continue a re-home. -/
  | linkctlInit (lp : Nat) (bytes : List Byte)
  /-- LINKCTL_INIT_ACK (R61): A received INIT_ACK for the port's own INIT may make the port ACTIVE. -/
  | linkctlInitAck (lp : Nat) (bytes : List Byte)
  /-- DATA_FRAME_RECEIVE (R55): A KMT DATA frame is checked in order, accepted, discarded as a duplicate or NAKed, and forwarded block by block. -/
  | dataFrameReceive (lp : Nat) (sec : Sec) (bytes : List Byte) (fcs : Fcs)
  /-- DATA_FRAME_SEND (R52): The sender starts a DATA frame once credit and replay-buffer space allow, applying MACsec with a new packet number. -/
  | dataFrameSend (lp : Nat)
  /-- ACK_RECEIVE (R51): A received ACK updates the credit limits and frees acknowledged frames from the replay buffer. -/
  | ackReceive (lp : Nat) (bytes : List Byte)
  /-- NAK_RECEIVE (R59): A received NAK in range acknowledges the earlier frames and starts a replay from ACKSEQ. -/
  | nakReceive (lp : Nat) (bytes : List Byte)
  /-- ACK_DELAY_EXPIRY (R56): ACK_DELAY after the first unacknowledged accepted frame expires and an ACK is sent. -/
  | ackDelayExpiry (lp : Nat)
  /-- IDLE_ACK_TIMER (R56): The 1 µs idle interval expires and an ACK is sent on an otherwise idle link. -/
  | idleAckTimer (lp : Nat)
  /-- NAK_HOLDOFF_EXPIRY (R57): 2 µs after a NAK with NEXT unchanged, the receiver may send the NAK again. -/
  | nakHoldoffExpiry (lp : Nat)
  /-- REPLAY_TMO_EXPIRY (R60): The oldest unacknowledged frame reaches REPLAY_TMO and is replayed; REPLAY_MAX replays in a row take the port DOWN. -/
  | replayTmoExpiry (lp : Nat)
  /-- LANE_FAIL (R63): A receiving lane fails on CDR, alignment or symbol errors, and a degrade starts or the port goes DOWN. -/
  | laneFail (lp lane : Nat) (cause : LaneCause)
  /-- DEGRADE (R65): A received DEGRADE lane control marker is answered with DEGRADE_ACK. -/
  | degrade (lp : Nat) (m : Marker)
  /-- DEGRADE_ACK (R65): A received DEGRADE_ACK ends the repetition of DEGRADE. -/
  | degradeAck (lp : Nat) (m : Marker)
  /-- DEGRADE_REPEAT_TIMER (R65): Every 200 ns without DEGRADE_ACK, the DEGRADE marker is sent again. -/
  | degradeRepeatTimer (lp : Nat)
  /-- SWITCH_CW (R65): The FEC codeword count reaches SWITCH_CW and both directions move to the new lane set. -/
  | switchCw (lp : Nat)
  /-- DEGRADE_ACK_TIMEOUT (R66): No DEGRADE_ACK within 2.5 µs takes the logical port DOWN for a full retrain. -/
  | degradeAckTimeout (lp : Nat)
  /-- RESTORE_TIMER (R69): A retrained lane has run error-free for RESTORE_MS, and the link widens with RESTORE markers. -/
  | restoreTimer (lp lane : Nat)
  /-- RESTORE (R69): A received RESTORE marker is answered with RESTORE_ACK. -/
  | restore (lp : Nat) (m : Marker)
  /-- RESTORE_ACK (R69): A received RESTORE_ACK completes the widening handshake. -/
  | restoreAck (lp : Nat) (m : Marker)
  /-- PCS_ALIGN_LOSS (R71): PCS alignment is lost on every lane of the current set for 1 µs, and the logical port goes DOWN. -/
  | pcsAlignLoss (lp : Nat)
  /-- SILENCE_TIMEOUT (R71): No frame arrives for 3 µs on an ACTIVE or DEGRADED KMT port, and the port goes DOWN. -/
  | silenceTimeout (lp : Nat)
  /-- PENALTY_RECOMPUTE (R72): The periodic recomputation of the flap penalty moves a port into or out of DAMPED. -/
  | penaltyRecompute (lp : Nat)
  /-- REHOME_MS_EXPIRY (R74): A port in RE_HOME that has not reached ACTIVE within REHOME_MS goes DOWN and reports a port-dead fault. -/
  | rehomeMsExpiry (lp : Nat)
  /-- PLAIN_FRAME_RECEIVE (R104): A PLAIN frame is classified, forwarded by destination MAC or trunk hash, or dropped and counted. -/
  | plainFrameReceive (lp : Nat) (sec : Sec) (f : PlainFrame) (fcs : Fcs)
  /-- PFC_FRAME_RECEIVE (R45): An 802.1Qbb PFC frame on a PLAIN port with PFC_EN pauses or resumes a priority. -/
  | pfcFrameReceive (lp prio quanta : Nat)
  /-- ARP_REQUEST (R339): An ARP request for CMD_IPV4 on a PLAIN CMD port is answered. -/
  | arpRequest (lp target srcMac srcIp : Nat)
  /-- NEIGHBOUR_SOLICITATION (R339): An IPv6 neighbour solicitation for CMD_IPV6 on a PLAIN CMD port is answered. -/
  | neighbourSolicitation (lp target srcMac srcIp : Nat)
  /-- MATCHING_CYCLE (R83): Every 1.6 ns the scheduler replicas compute a match, compare digests and move the granted cells. -/
  | matchingCycle (agree : Bool)
  /-- COMB_DECISION (R137): At the end of each 10 µs window a Crest turns combining on or off per class in AUTO mode. -/
  | combDecision (crest : Nat)
  /-- RATE_ADJUST (R138): Every 5 µs in AUTO mode the effective endpoint rates are raised or lowered by one eighth. -/
  | rateAdjust
  /-- RD (R123): A RD load/store request is checked by Table 4-3 and executed at HBM or forwarded to a tray, possibly joining a combining window. -/
  | rd (lp tc : Nat) (p : Kmt)
  /-- WR (R123): A WR request is checked and executed at HBM or a tray, with reply-cache recording. -/
  | wr (lp tc : Nat) (p : Kmt)
  /-- FADD (R115): A fetch-add atomic is checked and performed indivisibly at memory, possibly combined. -/
  | fadd (lp tc : Nat) (p : Kmt)
  /-- FAND (R115): A fetch-AND atomic is checked and performed indivisibly at memory, possibly combined. -/
  | fand (lp tc : Nat) (p : Kmt)
  /-- FOR (R115): A fetch-OR atomic is checked and performed indivisibly at memory, possibly combined. -/
  | forr (lp tc : Nat) (p : Kmt)
  /-- FXOR (R115): A fetch-XOR atomic is checked and performed indivisibly at memory, possibly combined. -/
  | fxor (lp tc : Nat) (p : Kmt)
  /-- FMAXS (R115): A signed fetch-max atomic is checked and performed indivisibly at memory, possibly combined. -/
  | fmaxs (lp tc : Nat) (p : Kmt)
  /-- FMINS (R115): A signed fetch-min atomic is checked and performed indivisibly at memory, possibly combined. -/
  | fmins (lp tc : Nat) (p : Kmt)
  /-- SWAP (R115): A SWAP atomic is checked and performed at memory, never combined. -/
  | swap (lp tc : Nat) (p : Kmt)
  /-- CAS (R115): A compare-and-swap atomic is checked and performed at memory, never combined. -/
  | cas (lp tc : Nat) (p : Kmt)
  /-- FLUSH (R116): A FLUSH completes after every earlier WR and atomic from the same source to the space on that port has ended. -/
  | flush (lp tc : Nat) (p : Kmt)
  /-- PUBLISH (R170): A PUBLISH flushes, then is served by the Anchor in arrival order, writing the Cairn word and making the Cairn current or ending with VERSION_CONFLICT. -/
  | publish (lp tc : Nat) (p : Kmt)
  /-- PUT (R125): A PUT message is checked against the binding and forwarded by DST. -/
  | put (lp tc : Nat) (p : Kmt)
  /-- GET (R125): A GET message is checked against the binding and forwarded by DST. -/
  | get (lp tc : Nat) (p : Kmt)
  /-- SEND (R125): A SEND message is checked against the binding and forwarded by DST. -/
  | send (lp tc : Nat) (p : Kmt)
  /-- MESSAGE_RESPONSE (R125): A response to a PUT, GET or SEND is forwarded by DST, or matched to a Haul PUT. -/
  | messageResponse (lp tc : Nat) (p : Kmt)
  /-- HBM_RESPONSE (R116): An HBM read or write performed by the memory units completes and answers the waiting request, or returns POISONED. -/
  | hbmResponse (id : Nat) (ue : List Nat)
  /-- TRAY_RESPONSE (R130): A tray response is matched to its tracker entry and answers the request, or is discarded as late. -/
  | trayResponse (lp tc : Nat) (p : Kmt)
  /-- TRAY_TMO_EXPIRY (R130): A tray request unanswered for TRAY_TMO is reissued once with RTX = 1, or ends with TIER_ERROR. -/
  | trayTmoExpiry (id : Nat)
  /-- COMB_WINDOW_CLOSE (R135): A combining window reaches WIN and closes; an atomic window sends its folded atomic. -/
  | combWindowClose (id : Nat)
  /-- REPLY_CACHE_EXPIRY (R142): A reply-cache entry older than E2E_HOLD is dropped. -/
  | replyCacheExpiry (crest src tag : Nat)
  /-- DRAIN_TIMEOUT (R143): DRAIN_US after a revoke, every request still in flight on the extent ends with EXTENT_REVOKED and the revoke proceeds to TFENCE. -/
  | drainTimeout (ext : Nat)
  /-- CRD_S (R159): A shared-read line request is served by the directory slice under Table 5-3. -/
  | crdS (lp tc : Nat) (p : Kmt)
  /-- CRD_X (R159): An exclusive-read line request is served by the directory slice under Table 5-3. -/
  | crdX (lp tc : Nat) (p : Kmt)
  /-- CUPG (R159): An upgrade request is served by the directory slice under Table 5-3. -/
  | cupg (lp tc : Nat) (p : Kmt)
  /-- CWB (R159): A write-back is written to memory or discarded as stale under Table 5-3. -/
  | cwb (lp tc : Nat) (p : Kmt)
  /-- CEVICT (R159): An eviction removes the agent from the line's entry under Table 5-3. -/
  | cevict (lp tc : Nat) (p : Kmt)
  /-- CJOIN (R150): An endpoint joins an aperture and receives a live agent number in a join word. -/
  | cjoin (lp tc : Nat) (p : Kmt)
  /-- CLEAVE (R151): An agent leaves the aperture and is declared dead with cause CLEAVE. -/
  | cleave (lp tc : Nat) (p : Kmt)
  /-- PROBE_RESPONSE (R158): A probe answer is matched by TAG; returned data is written to memory and the transaction proceeds or enters P. -/
  | probeResponse (lp tc : Nat) (p : Kmt)
  /-- LINE_TRANSACTION_DONE (R157): The last probe answer, memory write and grant of a line end, the line stops being busy and its next queued request is served. -/
  | lineTransactionDone (space line : Nat)
  /-- DIR_ENTRY_FILL (R156): A directory-cache miss read returns from HBM and the waiting request proceeds. -/
  | dirEntryFill (space line : Nat) (ue : Bool)
  /-- BELAY_HOLD_EXPIRY (R162): A Belay hold expires, releasing the delayed probes and freeing the hold record. -/
  | belayHoldExpiry (space line agent : Nat)
  /-- PROBE_TMO_EXPIRY (R165): An unanswered probe is repeated with RTX = 1, or, after the repeat also times out, the agent is declared dead. -/
  | probeTmoExpiry (id : Nat)
  /-- DEAD_US_EXPIRY (R165): An agent's port stays out of service for DEAD_US, and the agent is declared dead. -/
  | deadUsExpiry (apt agent : Nat)
  /-- DIR_AGENT_EVICT (R165): A management write of DIR_AGENT_EVICT.GO declares the named agent dead. -/
  | dirAgentEvict (h : MgmtHdr) (v : Word)
  /-- RECLAIM_WALK_DONE (R166): When all four reclaim walks of a dead agent are done, its agent number becomes FREE. -/
  | reclaimWalkDone (apt agent : Nat)
  /-- RECALL_WALK_DONE (R169): The revocation walk of a COHERENT extent or region ends and its entries are set to I. -/
  | recallWalkDone (id : Nat)
  /-- ROLE_ASSIGN (R178): ROLE_ASSIGN puts a unit into CHANGING and drains or aborts its descriptors before the role changes. -/
  | roleAssign (comp q : Nat)
  /-- ROLE_DRAIN_TIMEOUT (R178): DRAIN_US passes during a role change, and still-active descriptors end with ABORTED. -/
  | roleDrainTimeout (k : UKind) (unit : Nat)
  /-- ROLE_SCRUB_START (R178): When a changing unit's last descriptor ends, the role generation increments and the SRAM scrub starts. -/
  | roleScrubStart (k : UKind) (unit : Nat)
  /-- ROLE_SCRUB_DONE (R179): The scrub ends, the new role and composition are set and ROLE_ASSIGN completes. -/
  | roleScrubDone (k : UKind) (unit : Nat)
  /-- ROPE_FORM (R184): ROPE_FORM with action FORM forms a Rope from its listed members. -/
  | ropeForm (comp q : Nat)
  /-- ROPE_DISSOLVE (R183): ROPE_FORM with action DISSOLVE dissolves an IDLE Rope and returns its members to IDLE. -/
  | ropeDissolve (comp q : Nat)
  /-- COLL_POST (R210): COLL_POST carries a REDUCE descriptor, which is checked and starts reading its member table. -/
  | collPost (comp q : Nat)
  /-- GATHER_POST (R239): GATHER_POST carries a GATHER descriptor, which is checked, accepted and bound to the current table version. -/
  | gatherPost (comp q : Nat)
  /-- FILTER_POST (R270): FILTER_POST carries a FILTER descriptor, whose program is checked and placed in a program slot. -/
  | filterPost (comp q : Nat)
  /-- MEMBER_TABLE_READ_DONE (R211): The member table read completes, and the collective node is accepted or refused. -/
  | memberTableReadDone (id : Nat)
  /-- ECONTRIB (R216): A contribution chunk is checked and folded once into the node's accumulators, retiring segments as they complete. -/
  | econtrib (lp tc : Nat) (p : Kmt)
  /-- EBARRIER (R216): A barrier arrival is checked and recorded at the level-1 node. -/
  | ebarrier (lp tc : Nat) (p : Kmt)
  /-- EPART (R216): A partial from a child node or Rope member is folded once, or merged into a top-k list. -/
  | epart (lp tc : Nat) (p : Kmt)
  /-- EPART_RESPONSE (R216): The answers to a node's partials arrive, and the node commits its up phase when all are OK. -/
  | epartResponse (lp tc : Nat) (p : Kmt)
  /-- ERESULT (R218): A result chunk, release, resend request or abort notice reaches a child node and is forwarded or acted on. -/
  | eresult (lp tc : Nat) (p : Kmt)
  /-- ERESULT_RESPONSE (R219): Member answers to result chunks and releases let a node answer its parent, commit the root or write its completion. -/
  | eresultResponse (lp tc : Nat) (p : Kmt)
  /-- OWN_OFFER (R223): A received ownership offer lets the Partner claim the node on its standby copy, or starts an Anchor watch. -/
  | ownOffer (lp tc : Nat) (p : Kmt)
  /-- OWN_ACCEPT (R225): A received ownership record is compared with the held one and the node is given up, kept or recorded. -/
  | ownAccept (lp tc : Nat) (p : Kmt)
  /-- OWNERSHIP_WATCH_EXPIRY (R228): A 15 µs Anchor watch expires with no greater OWN_ACCEPT, and the Anchor aborts the collective. -/
  | ownershipWatchExpiry (id : Nat)
  /-- ENG_DEADLINE_CHECK (R201): The periodic deadline check of a unit finds a passed deadline and stops the descriptor with DEADLINE_MISSED. -/
  | engDeadlineCheck (unit : Nat)
  /-- ENG_CTL_RESET (R203): A write of ENG_CTL.RESET aborts the tile's (or its outermost Rope's) descriptors and starts its scrub. -/
  | engCtlReset (path : RegPath) (unit : Nat) (v : Word)
  /-- ENG_ROPE_CTL_RESET (R203): A write of ENG_ROPE_CTL.RESET aborts the Rope's descriptors and starts its scrub. -/
  | engRopeCtlReset (path : RegPath) (unit : Nat) (v : Word)
  /-- ENG_RESET_DONE (R203): The reset scrub and read-back end, RST_BUSY clears and FAILED clears if clean. -/
  | engResetDone (unit : Nat) (clean : Bool)
  /-- SRAM_UE (R204): An uncorrectable engine SRAM error ends the tile's share with INTERNAL_FAULT and sets FAILED. -/
  | sramUe (tile : Nat)
  /-- TABLE_PUBLISH (R235): TABLE_PUBLISH reads and checks a table record and makes the new version current. -/
  | tablePublish (comp q : Nat)
  /-- GINDEX (R240): An index packet is checked and its entries are de-duplicated into the open round; a completed round closes and requests its rows. -/
  | gindex (lp tc : Nat) (p : Kmt)
  /-- ROUND_FLUSH_DONE (R245): A flushed round's rows have been pooled, the de-duplication half is cleared and intake resumes. -/
  | roundFlushDone (desc tile : Nat)
  /-- ROW_READ_RESPONSE (R246): A local row read or hot-row load returns, is pooled into the bags, and a fully pooled round emits its bags. -/
  | rowReadResponse (id : Nat)
  /-- GROWREQ (R250): A remote row request is served by the shard's unit, which reads and returns the rows. -/
  | growreq (lp tc : Nat) (p : Kmt)
  /-- GROWREQ_RESPONSE (R251): Rows returned by a shard owner are pooled, or a failing status triggers per-row re-requests. -/
  | growreqResponse (lp tc : Nat) (p : Kmt)
  /-- ROW_TMO_EXPIRY (R251): A GROWREQ unanswered for ROW_TMO is resent to the Partner, or its rows fail with TIER_ERROR. -/
  | rowTmoExpiry (id : Nat)
  /-- GBAG_RESPONSE (R255): Destination answers to bag packets lead to the trailer, and the trailer's answer to the completion. -/
  | gbagResponse (lp tc : Nat) (p : Kmt)
  /-- FRECORD (R271): A record packet is checked and its new records are evaluated by the program, producing outputs. -/
  | frecord (lp tc : Nat) (p : Kmt)
  /-- FOUTPUT_RESPONSE (R276): Answers to output packets retire blocks and, after the trailer's answer, the run writes its completion. -/
  | foutputResponse (lp tc : Nat) (p : Kmt)
  /-- HAUL_POST (R304): HAUL_POST carries a Haul descriptor, which is checked, accepted and starts reading blocks and preloading codebooks. -/
  | haulPost (comp q : Nat)
  /-- BLOCK_READ_RESPONSE (R305): A stored block or codebook chunk arrives and is checked, decrypted, expanded and queued for output, or ends the descriptor. -/
  | blockReadResponse (id : Nat)
  /-- CODEBOOK_LOAD_DONE (R308): A codebook load ends and the stalled expander resumes. -/
  | codebookLoadDone (id : Nat)
  /-- PUT_RESPONSE (R301): A destination answers a Haul PUT or done word, freeing the tracker entry or losing that destination. -/
  | putResponse (lp tc : Nat) (p : Kmt)
  /-- PUT_TMO_EXPIRY (R301): An unanswered PUT is re-expanded and resent by unicast, or its destination is lost after PUT_RETRY resends. -/
  | putTmoExpiry (id : Nat)
  /-- HAUL_DEADLINE_CHECK (R306): The periodic Haul deadline check finds a passed deadline and stops the descriptor with DEADLINE_MISSED. -/
  | haulDeadlineCheck (unit : Nat)
  /-- HAUL_CTL_RESET (R310): A write of HAUL_CTL.RESET aborts the engine's (or its outermost Haul Rope's) descriptors and starts its scrub. -/
  | haulCtlReset (path : RegPath) (unit : Nat) (v : Word)
  /-- HAUL_ROPE_CTL_RESET (R310): A write of HAUL_ROPE_CTL.RESET aborts the Haul Rope's descriptors and starts its scrub. -/
  | haulRopeCtlReset (path : RegPath) (unit : Nat) (v : Word)
  /-- HAUL_RESET_DONE (R295): The Haul reset scrub ends and RST_BUSY clears. -/
  | haulResetDone (unit : Nat) (clean : Bool)
  /-- HAUL_UE (R415): An uncorrectable error in a Haul engine's cache, buffer or queue sets FAILED and ends its descriptors with INTERNAL_FAULT. -/
  | haulUe (engine : Nat)
  /-- ROUTE_LOAD_LOAD (R324): ROUTE_LOAD LOAD reads and checks a Route Card, copies it, maps its window and optionally prefills it. -/
  | routeLoadLoad (comp q : Nat)
  /-- ROUTE_LOAD_START (R325): ROUTE_LOAD START reads the release word as R0 and begins pass 0. -/
  | routeLoadStart (comp q : Nat)
  /-- ROUTE_LOAD_STOP (R325): ROUTE_LOAD STOP arms no further layer, aborts armed steps and writes an ABORTED pass record. -/
  | routeLoadStop (comp q : Nat)
  /-- ROUTE_LOAD_UNLOAD (R325): ROUTE_LOAD UNLOAD revokes the window extents and frees the window and the copy. -/
  | routeLoadUnload (comp q : Nat)
  /-- LAYER_ARM (R329): Once every step of the previous layer is posted, the card arms the next layer and posts its steps with PUTs held, deciding the prefetch depth. -/
  | layerArm (card : Nat)
  /-- FILL_READ_RESPONSE (R327): A window fill read returns; the block is checked and written to the window, or its share stays unfilled. -/
  | fillReadResponse (id : Nat)
  /-- STEP_REPOST (R332): A step refused with RETRY_LATER is posted again once a descriptor on that unit ends. -/
  | stepRepost (card step : Nat)
  /-- USAGE_INTEGRAL_TICK (R318): Every 1 ms each composition's page and tray usage is added to its usage integrals. -/
  | usageIntegralTick
  /-- CMD_INTAKE (R345): A command frame is classified by Table 12-3 and dropped, refused, answered as a duplicate or admitted. -/
  | cmdIntake (lp : Nat) (f : CmdFrame)
  /-- RING_PRODUCER_RESUME (R361): A producer waiting on a full result ring reserves its entry once CI advances and writes it, LSW last. -/
  | ringProducerResume (comp ring : Nat)
  /-- NOP (R350): NOP does nothing and is answered OK. -/
  | nop (comp q : Nat)
  /-- REG_READ (R351): REG_READ returns 1 to 64 register words from the command path. -/
  | regRead (comp q : Nat)
  /-- REG_WRITE (R351): REG_WRITE checks every word in ascending order, then writes them all or none. -/
  | regWrite (comp q : Nat)
  /-- SPACE_CREATE (R352): SPACE_MAP SPACE_CREATE takes the lowest free space number for the composition. -/
  | spaceCreate (comp q : Nat)
  /-- SPACE_DESTROY (R352): SPACE_MAP SPACE_DESTROY removes an empty space. -/
  | spaceDestroy (comp q : Nat)
  /-- EXTENT_MAP (R119): SPACE_MAP EXTENT_MAP maps a tray or HBM extent into a space, charging quota. -/
  | extentMap (comp q : Nat)
  /-- REGION_CREATE (R147): SPACE_MAP REGION_CREATE creates a COHERENT, SOFT or STREAM region after its checks. -/
  | regionCreate (comp q : Nat)
  /-- REGION_REMOVE (R352): SPACE_MAP REGION_REMOVE removes a region, running the recall walk for a COHERENT one. -/
  | regionRemove (comp q : Nat)
  /-- RING_CREATE (R352): SPACE_MAP RING_CREATE creates a result ring in HBM with every slot idle. -/
  | ringCreate (comp q : Nat)
  /-- RING_DESTROY (R355): SPACE_MAP RING_DESTROY frees a result ring that nothing names. -/
  | ringDestroy (comp q : Nat)
  /-- EXTENT_REVOKE (R143): EXTENT_REVOKE moves the extent to DRAINING and starts its drain. -/
  | extentRevoke (comp q : Nat)
  /-- JOB_CREATE (R351): JOB_CREATE creates a job with up to six space-and-rights pairs. -/
  | jobCreate (comp q : Nat)
  /-- JOB_DESTROY (R351): JOB_DESTROY removes a job that nothing names. -/
  | jobDestroy (comp q : Nat)
  /-- REGION_PUBLISH (R170): REGION_PUBLISH proposes a Cairn for a SOFT region without a flush. -/
  | regionPublish (comp q : Nat)
  /-- TENANT_CREATE (R368): TENANT_CREATE creates a composition with its security, queue depths and quotas, and zeroes its usage totals. -/
  | tenantCreate (comp q : Nat)
  /-- TENANT_REMOVE (R392): TENANT_REMOVE retires the composition's keys, stops its work, frees its objects and starts the HBM scrub. -/
  | tenantRemove (comp q : Nat)
  /-- TENANT_SCRUB_DONE (R392): The removal scrub ends, quotas are zeroed, the state becomes NONE and the completion is written. -/
  | tenantScrubDone (comp : Nat)
  /-- TENANT_RESET (R371): TENANT_RESET stops the composition's cards, idles its units, aborts its commands and resets its queues. -/
  | tenantReset (comp q : Nat)
  /-- QUIESCE (R409): QUIESCE enters QUIESCED, hands over owned work, stops cards and drains the rest. -/
  | quiesce (comp q : Nat)
  /-- QUIESCE_DRAIN_EXPIRY (R409): DRAIN_US of a QUIESCE passes and the remaining descriptors and requests end with ABORTED. -/
  | quiesceDrainExpiry
  /-- RESUME (R410): RESUME returns the device from QUIESCED to FULL. -/
  | resume (comp q : Nat)
  /-- PORT_REHOME (R73): PORT_REHOME puts a logical port into RE_HOME, keeping its link state. -/
  | portRehome (comp q : Nat)
  /-- SECOND_START (R436): SECOND_START names a Leader and enters SECONDING with a clean-window target. -/
  | secondStart (comp q : Nat)
  /-- SECOND_PROMOTE (R440): SECOND_PROMOTE waits for the clean run, then switches both Taliks to acknowledged mirroring and returns the Second to FULL. -/
  | secondPromote (comp q : Nat)
  /-- STATS_READ (R353): STATS_READ returns the selected block's counters and optionally clears them. -/
  | statsRead (comp q : Nat)
  /-- CAPTURE_START (R354): CAPTURE_CTL START allocates and maps a capture ring and sets CAP_CFG. -/
  | captureStart (comp q : Nat)
  /-- CAPTURE_STOP (R354): CAPTURE_CTL STOP clears the capture points. -/
  | captureStop (comp q : Nat)
  /-- CAPTURE_RELEASE (R354): CAPTURE_CTL RELEASE stops, unmaps and frees the capture ring. -/
  | captureRelease (comp q : Nat)
  /-- USAGE_READ (R389): USAGE_READ returns a composition's tier usage record signed by the alias key. -/
  | usageRead (comp q : Nat)
  /-- CMD_ATTN_CAUSE_W1C (R364): A write-one-to-clear of CMD_ATTN_CAUSE clears cause bits and may release ATTN_N. -/
  | cmdAttnCauseW1c (path : RegPath) (v : Word)
  /-- COUNTER_READ_CLEAR (R472): Reading the low word of a 64-bit RC counter clears it and latches its high word. -/
  | counterReadClear (path : RegPath) (addr : Nat)
  /-- REGISTER_WRITE (R469): A write to a register with no row of its own is checked for path and encoding and applied. -/
  | registerWrite (path : RegPath) (addr : Nat) (v : Word)
  /-- HELLO (R382): A management HELLO is answered with HELLO_REPLY carrying the chain and an encapsulation key. -/
  | hello (peer : Nat) (nonce : List Byte) (chain : List (List Byte))
  /-- KEX (R382): A KEX message completes the key exchange, and the Talik answers FINISH and opens the session. -/
  | kex (peer : Nat) (ct sig : List Byte)
  /-- MGMT_SESSION_IDLE (R383): A management session ends after MGMT_IDLE_S seconds without a message. -/
  | mgmtSessionIdle (sess : Nat)
  /-- MGMT_REG_READ (R469): A management REG_READ message returns register words, including hidden ones. -/
  | mgmtRegRead (h : MgmtHdr) (addr count : Nat)
  /-- MGMT_REG_WRITE (R469): A management REG_WRITE message writes registers, including those of path M. -/
  | mgmtRegWrite (h : MgmtHdr) (addr : Nat) (words : List Word)
  /-- GET_VERSION (R385): An SPDM GET_VERSION request is answered with version 1.3. -/
  | getVersion (h : MgmtHdr)
  /-- GET_CAPABILITIES (R385): An SPDM GET_CAPABILITIES request is answered with the Talik's capabilities. -/
  | getCapabilities (h : MgmtHdr)
  /-- NEGOTIATE_ALGORITHMS (R385): An SPDM NEGOTIATE_ALGORITHMS request selects SHA3-256 and the ML-DSA-44 ExtAsym entry. -/
  | negotiateAlgorithms (h : MgmtHdr) (offersSha3 offersExt : Bool)
  /-- GET_DIGESTS (R385): An SPDM GET_DIGESTS request returns the slot 0 chain digest. -/
  | getDigests (h : MgmtHdr)
  /-- GET_CERTIFICATE (R385): An SPDM GET_CERTIFICATE request returns the slot 0 chain. -/
  | getCertificate (h : MgmtHdr) (slot offset length : Nat)
  /-- CHALLENGE (R385): An SPDM CHALLENGE request is answered with a signed response. -/
  | challenge (h : MgmtHdr) (slot : Nat) (nonce : List Byte)
  /-- GET_MEASUREMENTS (R385): An SPDM GET_MEASUREMENTS request returns the signed measurement blocks of Table 13-5. -/
  | getMeasurements (h : MgmtHdr) (index : Nat) (nonce : List Byte)
  /-- KEY_INSTALL (R387): KEY_INSTALL decapsulates, unwraps and installs a weight key generation for a composition. -/
  | keyInstall (h : MgmtHdr) (comp kind kgen : Nat) (resv : Bool) (ct wrapped : List Byte)
  /-- KEY_RETIRE (R388): KEY_RETIRE retires a held generation, purging every item derived from it and ending its descriptors. -/
  | keyRetire (h : MgmtHdr) (comp kgen : Nat)
  /-- SAK_INSTALL (R386): SAK_INSTALL unwraps and installs a MACsec secure association key on a logical port. -/
  | sakInstall (h : MgmtHdr) (lp : Nat) (tx : Bool) (an ssci : Nat) (salt : List Byte) (pn : Nat) (ct wrapped : List Byte)
  /-- CAPSULE_WRITE (R379): CAPSULE_WRITE writes a configuration capsule to flash for the next cold reset. -/
  | capsuleWrite (h : MgmtHdr) (c : Capsule)
  /-- IMAGE_WRITE (R455): IMAGE_WRITE verifies and programs a firmware image; in recovery a cold reset follows. -/
  | imageWrite (h : MgmtHdr) (img : Image)
  /-- OWNER_CLAIM (R378): OWNER_CLAIM seals an owner public key into flash on an UNOWNED Talik. -/
  | ownerClaim (h : MgmtHdr) (key : List Byte)
  /-- OWNER_RELEASE (R378): An owner-signed OWNER_RELEASE erases the owner anchor and the capsule. -/
  | ownerRelease (h : MgmtHdr) (sig : List Byte)
  /-- SMBUS_BLOCK_WRITE (R497): An SMBus Block Write with command 0x01 sets the read address. -/
  | smbusBlockWrite (addr7 command : Nat) (data : List Byte) (pecOk : Bool)
  /-- SMBUS_BLOCK_READ (R497): An SMBus Block Read with command 0x02 returns the register at the read address. -/
  | smbusBlockRead (addr7 command : Nat) (pecOk : Bool)
  /-- IDCODE (R466): The JTAG IDCODE instruction selects the 32-bit identification register. -/
  | idcode
  /-- BYPASS (R466): The JTAG BYPASS instruction selects the 1-bit bypass register. -/
  | bypass
  /-- SAMPLE_PRELOAD (R466): The JTAG SAMPLE/PRELOAD instruction selects the boundary register in BIVOUAC or recovery. -/
  | samplePreload (bits : Nat)
  /-- EXTEST (R466): The JTAG EXTEST instruction drives the boundary register in BIVOUAC or recovery. -/
  | extest (bits : Nat)
  /-- FRZ_ACCESS (R466): The JTAG FRZ_ACCESS instruction starts a read of frozen state at Update-DR. -/
  | frzAccess (addr : DWord)
  /-- FRZ_READOUT_START (R464): Writing the high word of HUT_FRZ_ADDR starts a read of frozen state. -/
  | frzReadoutStart (h : MgmtHdr) (high : Word)
  /-- READOUT_DONE (R464): A frozen-state read ends, filling HUT_FRZ_DATA and RO_STAT and clearing RO_BUSY. -/
  | readoutDone (raw : DWord)
  /-- MLOG (R424): A Partner applies the records of a received MLOG in LSN order and answers with APPLIED_LSN. -/
  | mlog (lp tc : Nat) (p : Kmt)
  /-- MLOG_RESPONSE (R425): The Partner's answer to an MLOG makes the logged effects visible and lets HBM writes be performed. -/
  | mlogResponse (lp tc : Nat) (p : Kmt)
  /-- MLOG_TMO_EXPIRY (R424): An MLOG unanswered for MLOG_TMO is sent again with RTX = 1 on another Partner port. -/
  | mlogTmoExpiry (id : Nat)
  /-- HBEAT_TIMER (R427): Every 5 µs a heartbeat is sent on each live KMT trunk port. -/
  | hbeatTimer
  /-- HBEAT (R430): A received heartbeat refreshes the Partner's liveness, lifts a fence, and acts on a LOST notice. -/
  | hbeat (lp tc : Nat) (p : Kmt) (names : Bool) (half : Nat)
  /-- FENCE_US_EXPIRY (R428): No Partner heartbeat for FENCE_US fences the Talik's mirrored objects. -/
  | fenceUsExpiry
  /-- LOST_US_EXPIRY (R429): No Partner heartbeat for LOST_US declares the Partner lost and starts takeover, or keeps the fence if not connected. -/
  | lostUsExpiry
  /-- TAKEOVER_DONE (R432): The last reissued intent and probe close, TAKEOVER clears and a TAKEOVER_DONE record is written. -/
  | takeoverDone
  /-- SECOND_WINDOW_END (R439): At the end of each 10 µs window the Leader sends a MARK with its digest on each lane. -/
  | secondWindowEnd
  /-- PROMOTE_TMO_EXPIRY (R440): PROMOTE_TMO passes before promotion, and SECOND_PROMOTE completes with ABORTED. -/
  | promoteTmoExpiry
  /-- PWR_OK_RISE (R445): PWR_OK rising resets the JTAG TAP and starts the 1 ms after which internal reset may end. -/
  | pwrOkRise
  /-- TAP_RESET (R460): Five TCK cycles with TMS high reset the JTAG TAP. -/
  | tapReset
  /-- HOLDOVER (R80): The timebase leaves LOCKED for HOLDOVER when its PTP parent stops being heard, and it keeps counting. -/
  | holdover
  /-- SPDM_UNSUPPORTED_REQUEST (R385): Any SPDM request other than the seven supported ones is answered with an SPDM ERROR of UnsupportedRequest. -/
  | spdmUnsupportedRequest (h : MgmtHdr) (code : Nat)
  /-- CONTROL_CORES_RESTART (R415): The Hut control cores finish restarting from the verified image, the command path returns and HOST_RDY is released. -/
  | controlCoresRestart
  deriving DecidableEq, Repr

end Sys2Proof
end

