-- ==== Sys2Proof/WellFormed.lean ====
section
/-! DEFINITION. Which operands a command may carry: every field within the width the spec gives it. -/

namespace Sys2Proof

/-- Every field of the header of Table 4-1 within its width. -/
def Kmt.wf (p : Kmt) : Bool :=
  decide (p.opcode < 256) && decide (p.status < 256) && decide (p.load < 16) && decide (p.comp < 64) && decide (p.len < 65536) &&
  decide (p.job < 65536) && decide (p.src < 2 ^ 18) && decide (p.dst < 2 ^ 18) && decide (p.tag < 2 ^ 24) && decide (p.space < 65536) &&
  decide (p.chan < 256) && decide (p.addr < 2 ^ 64)

/-- MAC addresses of 48 bits, an EtherType of 16, and at least the 64 bytes of an Ethernet frame. -/
def PlainFrame.wf (f : PlainFrame) : Bool :=
  decide (f.dstMac < 2 ^ 48) && decide (f.srcMac < 2 ^ 48) && decide (f.etype < 65536) && (f.pcp.all fun v => decide (v < 8)) && decide (64 ≤ f.len)

/-- Addresses within their widths. -/
def CmdFrame.wf (f : CmdFrame) : Bool :=
  decide (f.srcMac < 2 ^ 48) && decide (f.dstMac < 2 ^ 48) && decide (f.srcIp < 2 ^ 128) && decide (f.dstIp < 2 ^ 128) &&
  decide (f.srcPort < 65536) && (f.vlan.all fun v => decide (v < 4096))

/-- SESSION of 4 bytes and SEQ of 8 (R381). -/
def MgmtHdr.wf (h : MgmtHdr) : Bool := decide (h.sess < 2 ^ 32) && decide (h.seq < 2 ^ 64)

/-- A lane set of eight lanes, and a codeword count of 32 bits (Table 2-8). -/
def Marker.wf (m : Marker) : Bool := decide (m.mask < 256) && decide (m.switchCw < 2 ^ 32)

/-- Header fields within their widths (Table 13-4). -/
def Image.wf (i : Image) : Bool :=
  decide (i.magic < 2 ^ 32) && decide (i.iver < 65536) && decide (i.svn < 65536) && decide (i.bodyLen < 2 ^ 32)

/-- Header fields within their widths, and at most 16 anchors (R379, R384). -/
def Capsule.wf (c : Capsule) : Bool := decide (c.capSvn < 65536) && decide (c.minFwSvn < 65536) && decide (c.anchors.length ≤ 16)

/-- Unit numbers: engine units below 128, Haul units below 64 (R25). -/
def UKind.has : UKind → Nat → Bool
  | .eng, u => decide (u < 128)
  | .haul, u => decide (u < 64)

/-- Are a command's operands within their widths? -/
def Instr.wf : Instr → Bool
  | .pwrOkFall => true
  | .porstNAssert => true
  | .internalResetEnd smbAddr => decide (smbAddr < 4)
  | .brownOut => true
  | .coreRstNAssert => true
  | .coreRstNRelease => true
  | .frzNFall => true
  | .refclkCheck _ _ sd => decide (sd < 256)
  | .bootStageComplete _ => true
  | .fullEntry => true
  | .mgmtLinkTry _ => true
  | .hutRstCtlCold h _ => h.wf
  | .hutRstCtlWarm h _ => h.wf
  | .resetDelayExpiry => true
  | .hutWatchdog => true
  | .thermSample _ _ => true
  | .ridgeLinkFailure => true
  | .crestPllLockLoss crest => decide (crest < 4)
  | .hbmControllerFailure => true
  | .pwrEstTick _ => true
  | .ptpEventMessage lp _ => decide (lp < 1024)
  | .lldpFrame lp _ => decide (lp < 1024)
  | .portCfgWrite _ addr _ => decide (addr < 2 ^ 32)
  | .portCtlRetrain _ port _ => decide (port < 96)
  | .pcsLock lp => decide (lp < 1024)
  | .initTimer lp => decide (lp < 1024)
  | .noKmtPeerTimeout lp => decide (lp < 1024)
  | .linkctlInit lp _ => decide (lp < 1024)
  | .linkctlInitAck lp _ => decide (lp < 1024)
  | .dataFrameReceive lp _ _ _ => decide (lp < 1024)
  | .dataFrameSend lp => decide (lp < 1024)
  | .ackReceive lp _ => decide (lp < 1024)
  | .nakReceive lp _ => decide (lp < 1024)
  | .ackDelayExpiry lp => decide (lp < 1024)
  | .idleAckTimer lp => decide (lp < 1024)
  | .nakHoldoffExpiry lp => decide (lp < 1024)
  | .replayTmoExpiry lp => decide (lp < 1024)
  | .laneFail lp lane _ => decide (lp < 1024) && decide (lane < 8)
  | .degrade lp m => decide (lp < 1024) && m.wf
  | .degradeAck lp m => decide (lp < 1024) && m.wf
  | .degradeRepeatTimer lp => decide (lp < 1024)
  | .switchCw lp => decide (lp < 1024)
  | .degradeAckTimeout lp => decide (lp < 1024)
  | .restoreTimer lp lane => decide (lp < 1024) && decide (lane < 8)
  | .restore lp m => decide (lp < 1024) && m.wf
  | .restoreAck lp m => decide (lp < 1024) && m.wf
  | .pcsAlignLoss lp => decide (lp < 1024)
  | .silenceTimeout lp => decide (lp < 1024)
  | .penaltyRecompute lp => decide (lp < 1024)
  | .rehomeMsExpiry lp => decide (lp < 1024)
  | .plainFrameReceive lp _ f _ => decide (lp < 1024) && f.wf
  | .pfcFrameReceive lp prio quanta => decide (lp < 1024) && decide (prio < 8) && decide (quanta < 65536)
  | .arpRequest lp _ _ _ => decide (lp < 1024)
  | .neighbourSolicitation lp _ _ _ => decide (lp < 1024)
  | .matchingCycle _ => true
  | .combDecision crest => decide (crest < 4)
  | .rateAdjust => true
  | .rd lp tc p => decide (lp < 1024) && decide (tc < 8) && p.wf
  | .wr lp tc p => decide (lp < 1024) && decide (tc < 8) && p.wf
  | .fadd lp tc p => decide (lp < 1024) && decide (tc < 8) && p.wf
  | .fand lp tc p => decide (lp < 1024) && decide (tc < 8) && p.wf
  | .forr lp tc p => decide (lp < 1024) && decide (tc < 8) && p.wf
  | .fxor lp tc p => decide (lp < 1024) && decide (tc < 8) && p.wf
  | .fmaxs lp tc p => decide (lp < 1024) && decide (tc < 8) && p.wf
  | .fmins lp tc p => decide (lp < 1024) && decide (tc < 8) && p.wf
  | .swap lp tc p => decide (lp < 1024) && decide (tc < 8) && p.wf
  | .cas lp tc p => decide (lp < 1024) && decide (tc < 8) && p.wf
  | .flush lp tc p => decide (lp < 1024) && decide (tc < 8) && p.wf
  | .publish lp tc p => decide (lp < 1024) && decide (tc < 8) && p.wf
  | .put lp tc p => decide (lp < 1024) && decide (tc < 8) && p.wf
  | .get lp tc p => decide (lp < 1024) && decide (tc < 8) && p.wf
  | .send lp tc p => decide (lp < 1024) && decide (tc < 8) && p.wf
  | .messageResponse lp tc p => decide (lp < 1024) && decide (tc < 8) && p.wf
  | .hbmResponse _ _ => true
  | .trayResponse lp tc p => decide (lp < 1024) && decide (tc < 8) && p.wf
  | .trayTmoExpiry _ => true
  | .combWindowClose _ => true
  | .replyCacheExpiry crest src tag => decide (crest < 4) && decide (src < 2 ^ 18) && decide (tag < 2 ^ 24)
  | .drainTimeout _ => true
  | .crdS lp tc p => decide (lp < 1024) && decide (tc < 8) && p.wf
  | .crdX lp tc p => decide (lp < 1024) && decide (tc < 8) && p.wf
  | .cupg lp tc p => decide (lp < 1024) && decide (tc < 8) && p.wf
  | .cwb lp tc p => decide (lp < 1024) && decide (tc < 8) && p.wf
  | .cevict lp tc p => decide (lp < 1024) && decide (tc < 8) && p.wf
  | .cjoin lp tc p => decide (lp < 1024) && decide (tc < 8) && p.wf
  | .cleave lp tc p => decide (lp < 1024) && decide (tc < 8) && p.wf
  | .probeResponse lp tc p => decide (lp < 1024) && decide (tc < 8) && p.wf
  | .lineTransactionDone space line => decide (space < 1024) && decide (line < 2 ^ 46)
  | .dirEntryFill space line _ => decide (space < 1024) && decide (line < 2 ^ 46)
  | .belayHoldExpiry space line agent => decide (space < 1024) && decide (line < 2 ^ 46) && decide (agent < 512)
  | .probeTmoExpiry _ => true
  | .deadUsExpiry apt agent => decide (apt < 64) && decide (agent < 512)
  | .dirAgentEvict h _ => h.wf
  | .reclaimWalkDone apt agent => decide (apt < 64) && decide (agent < 512)
  | .recallWalkDone _ => true
  | .roleAssign comp q => decide (comp < 64) && decide (q < 4)
  | .roleDrainTimeout k unit => k.has unit
  | .roleScrubStart k unit => k.has unit
  | .roleScrubDone k unit => k.has unit
  | .ropeForm comp q => decide (comp < 64) && decide (q < 4)
  | .ropeDissolve comp q => decide (comp < 64) && decide (q < 4)
  | .collPost comp q => decide (comp < 64) && decide (q < 4)
  | .gatherPost comp q => decide (comp < 64) && decide (q < 4)
  | .filterPost comp q => decide (comp < 64) && decide (q < 4)
  | .memberTableReadDone _ => true
  | .econtrib lp tc p => decide (lp < 1024) && decide (tc < 8) && p.wf
  | .ebarrier lp tc p => decide (lp < 1024) && decide (tc < 8) && p.wf
  | .epart lp tc p => decide (lp < 1024) && decide (tc < 8) && p.wf
  | .epartResponse lp tc p => decide (lp < 1024) && decide (tc < 8) && p.wf
  | .eresult lp tc p => decide (lp < 1024) && decide (tc < 8) && p.wf
  | .eresultResponse lp tc p => decide (lp < 1024) && decide (tc < 8) && p.wf
  | .ownOffer lp tc p => decide (lp < 1024) && decide (tc < 8) && p.wf
  | .ownAccept lp tc p => decide (lp < 1024) && decide (tc < 8) && p.wf
  | .ownershipWatchExpiry _ => true
  | .engDeadlineCheck unit => decide (unit < 128)
  | .engCtlReset _ unit _ => decide (unit < 128)
  | .engRopeCtlReset _ unit _ => decide (unit < 128)
  | .engResetDone unit _ => decide (unit < 128)
  | .sramUe tile => decide (tile < 64)
  | .tablePublish comp q => decide (comp < 64) && decide (q < 4)
  | .gindex lp tc p => decide (lp < 1024) && decide (tc < 8) && p.wf
  | .roundFlushDone _ tile => decide (tile < 64)
  | .rowReadResponse _ => true
  | .growreq lp tc p => decide (lp < 1024) && decide (tc < 8) && p.wf
  | .growreqResponse lp tc p => decide (lp < 1024) && decide (tc < 8) && p.wf
  | .rowTmoExpiry _ => true
  | .gbagResponse lp tc p => decide (lp < 1024) && decide (tc < 8) && p.wf
  | .frecord lp tc p => decide (lp < 1024) && decide (tc < 8) && p.wf
  | .foutputResponse lp tc p => decide (lp < 1024) && decide (tc < 8) && p.wf
  | .haulPost comp q => decide (comp < 64) && decide (q < 4)
  | .blockReadResponse _ => true
  | .codebookLoadDone _ => true
  | .putResponse lp tc p => decide (lp < 1024) && decide (tc < 8) && p.wf
  | .putTmoExpiry _ => true
  | .haulDeadlineCheck unit => decide (unit < 128)
  | .haulCtlReset _ unit _ => decide (unit < 128)
  | .haulRopeCtlReset _ unit _ => decide (unit < 128)
  | .haulResetDone unit _ => decide (unit < 128)
  | .haulUe engine => decide (engine < 32)
  | .routeLoadLoad comp q => decide (comp < 64) && decide (q < 4)
  | .routeLoadStart comp q => decide (comp < 64) && decide (q < 4)
  | .routeLoadStop comp q => decide (comp < 64) && decide (q < 4)
  | .routeLoadUnload comp q => decide (comp < 64) && decide (q < 4)
  | .layerArm card => decide (card < 16)
  | .fillReadResponse _ => true
  | .stepRepost card _ => decide (card < 16)
  | .usageIntegralTick => true
  | .cmdIntake lp f => decide (lp < 1024) && f.wf
  | .ringProducerResume comp ring => decide (comp < 64) && decide (ring < 1024)
  | .nop comp q => decide (comp < 64) && decide (q < 4)
  | .regRead comp q => decide (comp < 64) && decide (q < 4)
  | .regWrite comp q => decide (comp < 64) && decide (q < 4)
  | .spaceCreate comp q => decide (comp < 64) && decide (q < 4)
  | .spaceDestroy comp q => decide (comp < 64) && decide (q < 4)
  | .extentMap comp q => decide (comp < 64) && decide (q < 4)
  | .regionCreate comp q => decide (comp < 64) && decide (q < 4)
  | .regionRemove comp q => decide (comp < 64) && decide (q < 4)
  | .ringCreate comp q => decide (comp < 64) && decide (q < 4)
  | .ringDestroy comp q => decide (comp < 64) && decide (q < 4)
  | .extentRevoke comp q => decide (comp < 64) && decide (q < 4)
  | .jobCreate comp q => decide (comp < 64) && decide (q < 4)
  | .jobDestroy comp q => decide (comp < 64) && decide (q < 4)
  | .regionPublish comp q => decide (comp < 64) && decide (q < 4)
  | .tenantCreate comp q => decide (comp < 64) && decide (q < 4)
  | .tenantRemove comp q => decide (comp < 64) && decide (q < 4)
  | .tenantScrubDone comp => decide (comp < 64)
  | .tenantReset comp q => decide (comp < 64) && decide (q < 4)
  | .quiesce comp q => decide (comp < 64) && decide (q < 4)
  | .quiesceDrainExpiry => true
  | .resume comp q => decide (comp < 64) && decide (q < 4)
  | .portRehome comp q => decide (comp < 64) && decide (q < 4)
  | .secondStart comp q => decide (comp < 64) && decide (q < 4)
  | .secondPromote comp q => decide (comp < 64) && decide (q < 4)
  | .statsRead comp q => decide (comp < 64) && decide (q < 4)
  | .captureStart comp q => decide (comp < 64) && decide (q < 4)
  | .captureStop comp q => decide (comp < 64) && decide (q < 4)
  | .captureRelease comp q => decide (comp < 64) && decide (q < 4)
  | .usageRead comp q => decide (comp < 64) && decide (q < 4)
  | .cmdAttnCauseW1c _ _ => true
  | .counterReadClear _ addr => decide (addr < 2 ^ 32)
  | .registerWrite _ addr _ => decide (addr < 2 ^ 32)
  | .hello _ _ _ => true
  | .kex _ _ _ => true
  | .mgmtSessionIdle _ => true
  | .mgmtRegRead h addr _ => h.wf && decide (addr < 2 ^ 32)
  | .mgmtRegWrite h addr _ => h.wf && decide (addr < 2 ^ 32)
  | .getVersion h => h.wf
  | .getCapabilities h => h.wf
  | .negotiateAlgorithms h _ _ => h.wf
  | .getDigests h => h.wf
  | .getCertificate h slot _ _ => h.wf && decide (slot < 256)
  | .challenge h slot _ => h.wf && decide (slot < 256)
  | .getMeasurements h index _ => h.wf && decide (index < 256)
  | .keyInstall h comp kind kgen _ _ _ => h.wf && decide (comp < 64) && decide (kind < 256) && decide (kgen < 65536)
  | .keyRetire h comp kgen => h.wf && decide (comp < 64) && decide (kgen < 65536)
  | .sakInstall h lp _ an ssci _ pn _ _ => h.wf && decide (lp < 1024) && decide (an < 4) && decide (ssci < 2 ^ 32) && decide (pn < 2 ^ 64)
  | .capsuleWrite h c => h.wf && c.wf
  | .imageWrite h img => h.wf && img.wf
  | .ownerClaim h _ => h.wf
  | .ownerRelease h _ => h.wf
  | .smbusBlockWrite addr7 command _ _ => decide (addr7 < 128) && decide (command < 256)
  | .smbusBlockRead addr7 command _ => decide (addr7 < 128) && decide (command < 256)
  | .idcode => true
  | .bypass => true
  | .samplePreload _ => true
  | .extest _ => true
  | .frzAccess _ => true
  | .frzReadoutStart h _ => h.wf
  | .readoutDone _ => true
  | .mlog lp tc p => decide (lp < 1024) && decide (tc < 8) && p.wf
  | .mlogResponse lp tc p => decide (lp < 1024) && decide (tc < 8) && p.wf
  | .mlogTmoExpiry _ => true
  | .hbeatTimer => true
  | .hbeat lp tc p _ half => decide (lp < 1024) && decide (tc < 8) && p.wf && decide (half < 2)
  | .fenceUsExpiry => true
  | .lostUsExpiry => true
  | .takeoverDone => true
  | .secondWindowEnd => true
  | .promoteTmoExpiry => true
  | .pwrOkRise => true
  | .tapReset => true
  | .holdover => true
  | .spdmUnsupportedRequest h code => h.wf && decide (code < 256)
  | .controlCoresRestart => true

end Sys2Proof
end

