-- ==== Sys2Proof/Config.lean ====
section
/-! DEFINITION. What the spec leaves open or names only by an outside standard: free values with no body
(nothing can prove a value of them) and the cryptographic functions as uninterpreted functions. -/

namespace Sys2Proof.Config

/-- A fresh free value for each index: what the spec calls the Talik's choice, an estimate or a random
number. The step applies it to the counter `freeCtr` of State. Log entry 6. -/
opaque freeValue : Nat → Nat

/-- SHA3-256 (FIPS 202) of a byte string. Uninterpreted: log entry 7. -/
opaque sha3 : List Byte → List Byte

/-- ML-DSA-44 (FIPS 204): does the signature verify for this public key and digest? Log entry 7. -/
opaque mldsaVerify : List Byte → List Byte → List Byte → Bool

/-- ML-DSA-44 signature of a digest under the key of this seed, hedged by the last argument. Log entry 7. -/
opaque mldsaSign : List Byte → List Byte → Nat → List Byte

/-- ML-DSA-44 public key of a seed. Log entry 7. -/
opaque mldsaPublic : List Byte → List Byte

/-- ML-KEM-768 encapsulation key of a seed. Log entry 7. -/
opaque mlkemPublic : Nat → List Byte

/-- ML-KEM-768 decapsulation under the key of a seed: the shared secret, or none when it fails. Log entry 7. -/
opaque mlkemDecap : Nat → List Byte → Option (List Byte)

/-- AES-256-GCM open (key, nonce, additional data, ciphertext with tag): plaintext, or none when the tag fails.
Log entry 7. -/
opaque gcmOpen : List Byte → List Byte → List Byte → List Byte → Option (List Byte)

/-- The public key a certificate chain ends in, and whether each link of it verifies (X.509, R384). Log entry 7. -/
opaque chainKey : List (List Byte) → Option (List Byte)

/-- The public key at which a certificate chain is rooted (R384). Log entry 7. -/
opaque chainRoot : List (List Byte) → Option (List Byte)

/-- The certificates held in flash beside the helper data, from the Ikimos root to the DIK certificate (R373, R382). Log entry 7. -/
opaque deviceCerts : List (List Byte)

/-- Certificate over an alias public key under the DIK of a seed (Table 13-3). Log entry 7. -/
opaque aliasCert : List Byte → List Byte → List Byte

/-- What the boot ROM's four Ikimos key digests are (R374). -/
opaque ikimosDigests : List (List Byte)

/-- Digest of the boot ROM (Table 13-5, index 1). -/
opaque romDigest : List Byte

/-- The PUF's device secret of this part (R373). -/
opaque deviceSecret : List Byte

/-- The helper-data version that measurement 5 covers (Table 13-5). -/
opaque helperVersion : List Byte

/-- Destination and source MAC (12 bytes) of the KMT frames that a logical port sends; R47 gives them no value. Log entry 10. -/
opaque linkMacs : Nat → List Byte

/-- COUNTER field of the FLT_CAUSE_TAB entry of a class and cause whose counter is kept per port or per unit (Table 17-12 names
one address, the rule one counter for each port or unit). -/
opaque causeCounter : Nat → Nat → BitVec 32

end Sys2Proof.Config
end

