-- ==== Sys2Proof/Machine/Bits.lean ====
section
/-! DEFINITION. Bit fields, byte order, CRCs and sparse maps: the helpers every family uses (R1, R3, R50). -/

namespace Sys2Proof.Machine

/-- The field [hi:lo] of a number (R1). -/
def bits (v hi lo : Nat) : Nat := (v >>> lo) % 2 ^ (hi + 1 - lo)

/-- Bit n of a number (R1). -/
def bit (v n : Nat) : Bool := (v >>> n) % 2 == 1

/-- A truth value as a bit. -/
def b2n (b : Bool) : Nat := if b then 1 else 0

/-- The number with its field [hi:lo] replaced. -/
def setBits (v hi lo x : Nat) : Nat :=
  v - ((bits v hi lo) <<< lo) + ((x % 2 ^ (hi + 1 - lo)) <<< lo)

/-- `n` little-endian bytes of a number (R3). -/
def le : Nat → Nat → List Byte
  | 0, _ => []
  | n + 1, v => BitVec.ofNat 8 v :: le n (v / 256)

/-- The little-endian number that the bytes spell (R3). -/
def leVal : List Byte → Nat
  | [] => 0
  | b :: bs => b.toNat + 256 * leVal bs

/-- The little-endian field of `n` bytes at offset `off` of a structure; bytes past the end read zero. -/
def fld (bs : List Byte) (off n : Nat) : Nat := leVal ((bs.drop off).take n)

/-- Byte `off` of a structure. -/
def byteAt (bs : List Byte) (off : Nat) : Nat := (bs.getD off 0).toNat

/-- The slice of `n` bytes at offset `off`. -/
def slice (bs : List Byte) (off n : Nat) : List Byte := (bs.drop off).take n

/-- Are the `n` bytes at `off` zero (R5)? -/
def zeroAt (bs : List Byte) (off n : Nat) : Bool := fld bs off n == 0

/-- `n` zero bytes. -/
def zeros (n : Nat) : List Byte := List.replicate n 0

/-- Exactly `n` bytes: cut, or padded with zeros. -/
def padTo (n : Nat) (bs : List Byte) : List Byte := (bs ++ zeros (n - bs.length)).take n

/-- Pads a byte string with zeros to a multiple of `k`. -/
def padMul (k : Nat) (bs : List Byte) : List Byte := bs ++ zeros ((k - bs.length % k) % k)

/-- The number, rounded up to a multiple of `k`, divided by `k`. -/
def ceilDiv (a k : Nat) : Nat := (a + k - 1) / k

/-- Eight steps of a reflected CRC with polynomial `poly` on `n` bits of register. -/
def crcBits (poly : Nat) : Nat → Nat → Nat
  | 0, c => c
  | n + 1, c => crcBits poly n (if c % 2 = 1 then (c / 2) ^^^ poly else c / 2)

/-- One byte enters the register of CRC-32C. -/
def crcByte (c : Nat) (b : Byte) : Nat := crcBits 0x82F63B78 8 (c ^^^ b.toNat)

/-- CRC-32C of a byte string (R50): reflected polynomial 0x82F63B78, initial value and final XOR all ones. -/
def crc32c (bs : List Byte) : Nat := bs.foldl crcByte 0xFFFFFFFF ^^^ 0xFFFFFFFF

/-- The value at a key of a sparse map. -/
def mget {α : Type} : SMap α → Nat → Option α
  | [], _ => none
  | (k, v) :: t, q => if q = k then some v else mget t q

/-- The value at a key, or what an unlisted key reads as. -/
def mgetD {α : Type} (m : SMap α) (k : Nat) (d : α) : α := (mget m k).getD d

/-- Sets the value at a key, keeping keys strictly rising. -/
def mset {α : Type} : SMap α → Nat → α → SMap α
  | [], q, x => [(q, x)]
  | (k, v) :: t, q, x =>
    if q < k then (q, x) :: (k, v) :: t
    else if q = k then (q, x) :: t
    else (k, v) :: mset t q x

/-- Removes a key. -/
def mdel {α : Type} (m : SMap α) (q : Nat) : SMap α := m.filter fun p => p.1 != q

/-- Sets the value at a key; the value an unlisted key reads as is not listed. -/
def msetD {α : Type} [DecidableEq α] (m : SMap α) (q : Nat) (d x : α) : SMap α :=
  if x = d then mdel m q else mset m q x

/-- Changes the value at a key, if listed. -/
def mmod {α : Type} (m : SMap α) (q : Nat) (f : α → α) : SMap α :=
  m.map fun p => if p.1 = q then (p.1, f p.2) else p

/-- Keys strictly rising. -/
def keysRise {α : Type} : SMap α → Bool
  | [] => true
  | [_] => true
  | a :: b :: t => decide (a.1 < b.1) && keysRise (b :: t)

/-- The lowest number from `a`, of `n`, that is not in use. -/
def firstFree (used : Nat → Bool) : Nat → Nat → Option Nat
  | _, 0 => none
  | a, n + 1 => if used a then firstFree used (a + 1) n else some a

/-- The lowest number below `n` not in use, searched circularly from a free start (the Talik's choice). -/
def anyFree (used : Nat → Bool) (start n : Nat) : Option Nat :=
  let k := if n = 0 then 0 else start % n
  (firstFree used k (n - k)).or (firstFree used 0 k)

/-- Replaces every element for which `p` holds by its image. -/
def modIf {α : Type} (p : α → Bool) (f : α → α) (l : List α) : List α :=
  l.map fun a => if p a then f a else a

/-- Folds a state function over a list. -/
def each {α σ : Type} (l : List α) (f : α → σ → σ) (s : σ) : σ := l.foldl (fun s a => f a s) s

/-- The sum of a list of numbers. -/
def sum (l : List Nat) : Nat := l.foldl (· + ·) 0

/-- A saturating sum (R12). -/
def satAdd (top a b : Nat) : Nat := min top (a + b)

/-- The signed value of an `n`-bit number. -/
def sgn (n v : Nat) : Int := if v ≥ 2 ^ (n - 1) then (v : Int) - 2 ^ n else v

/-- The `n`-bit two's complement of an integer. -/
def unsgn (n : Nat) (i : Int) : Nat := (i % (2 ^ n : Int)).toNat

end Sys2Proof.Machine
end

