-- ==== Sys2Proof/Machine/State.lean ====
section
/-! DEFINITION. The state of the block as plain data, its fault and refusal reasons, and the state at reset.
INVENTORY.md names the rule of spec/ behind every field. -/

namespace Sys2Proof.Machine

/-- The two parts (R35). -/
inductive Part where
  | ct9616 | ct9608
  deriving DecidableEq, Repr

/-- A log position that must be answered by the Partner before an effect is visible (R425): lane and LSN. -/
abbrev Gate := Option (Nat × Nat)

/-! ### Device: pins, resets, boot, clocks, freeze, flash -/

/-- Device state codes of Table 14-9. -/
inductive DevState where
  | baseCamp | full | seconding | quiesced | bivouac
  deriving DecidableEq, Repr

/-- What the firmware flash holds (R373, R374, R378, R379). -/
structure Flash where
  helper : Bool := true
  image : Option Image := none
  capsule : Option Capsule := none
  /-- The owner anchor sealed in flash: the owner's public key and the highest accepted CAP_SVN (R377). -/
  owner : Option (List Byte) := none
  capSvn : Nat := 0
  deriving DecidableEq, Repr

/-- A reset requested and waiting its 10 µs (R459). -/
structure ResetReq where
  cold : Bool
  /-- Bit of HUT_RESET_CAUSE (Table 16-9). -/
  cause : Nat
  due : Nat
  deriving DecidableEq, Repr

/-- Pins, reset, boot, freeze, clocks and temperatures (chapters 16 and 17). -/
structure Dev where
  part : Part := .ct9616
  pwrOk : Bool := false
  porstLow : Bool := true
  coreRstLow : Bool := false
  /-- A brown-out holds the device until PWR_OK has been low and then high again (R491). -/
  brown : Bool := false
  /-- Instant at which PWR_OK last rose. -/
  pwrAt : Nat := 0
  /-- Internal reset has not ended. -/
  inReset : Bool := true
  bootStart : Nat := 0
  stage : Nat := 0
  stageMs : Nat := 0
  bootErr : Nat := 0
  resetCause : Nat := 0
  resetReq : Option ResetReq := none
  /-- A device warm reset is under way (before BASE_CAMP). -/
  warm : Bool := false
  /-- The warm reset waits in step 4 for CORE_RST_N (R458). -/
  warmHeld : Bool := false
  devState : DevState := .baseCamp
  devChanges : Nat := 0
  /-- Instant at which BASE_CAMP began (R451). -/
  campAt : Nat := 0
  /-- The Hut control cores are restarting (CLASS 0x0E). -/
  coresDown : Bool := false
  /-- CLK_REF_STATUS and CLK_PLL_STATUS. -/
  refs : Nat := 0
  plls : Nat := 0
  /-- Management port: linked, and the mode being tried in recovery (true: 10GBASE-R). -/
  mgmtLinked : Bool := false
  mgmtTry10g : Bool := true
  mgmtTryAt : Nat := 0
  /-- Freeze and read-out (R461 to R466). -/
  frzInReset : Bool := false
  roBusy : Bool := false
  roStat : Nat := 0
  /-- Address of the read under way, and HUT_FRZ_DATA. -/
  roAddr : Nat := 0
  frzData : Nat := 0
  /-- JTAG: instruction in force (0 IDCODE, 1 BYPASS, 2 SAMPLE/PRELOAD, 3 EXTEST, 4 FRZ_ACCESS), boundary register, address of an
  FRZ_ACCESS read under way (R466). -/
  tapIr : Nat := 0
  boundary : Nat := 0
  jtagRead : Option Nat := none
  /-- SMBus: sampled SMB_ADDR and the read address (R497). -/
  smbAddr : Nat := 0
  smbPtr : Nat := 0
  /-- Die temperatures in 1/8 °C: now, peak, and over the trip limit in the last sample. -/
  dieNow : List Int := []
  diePeak : List Int := []
  dieHot : List Bool := []
  hbmNow : List Nat := []
  hbmPeak : List Nat := []
  hbmHot : List Bool := []
  thermTrip : Bool := false
  thermWarn : Nat := 0
  hbmWarn : Nat := 0
  thermLock : Bool := false
  thermLockSet : Bool := false
  /-- End of a QUIESCE's drain (R409). -/
  drainAt : Option Nat := none
  jtagRo : Bool := false
  jtagRoSet : Bool := false
  pwrNow : List Nat := []
  pwrPeak : List Nat := []
  flash : Flash := {}
  deriving DecidableEq, Repr

/-- The device timebase (R80, R81) and the block's own clock. -/
structure Clocks where
  /-- Nanoseconds since the model's start: every interval is measured on it. -/
  clk : Nat := 0
  /-- CLK_TB_NOW. -/
  tb : Nat := 0
  /-- CLK_TB_STATUS.STATE: 0 FREE_RUN, 1 ACQUIRING, 2 LOCKED, 3 HOLDOVER. -/
  tbState : Nat := 0
  srcPort : Nat := 0
  offsetAlarm : Bool := false
  /-- Correction still to be slewed in, in ns, and time since the last ns of it (R81: at most 200 ppm). -/
  slew : Int := 0
  slewAcc : Nat := 0
  deriving DecidableEq, Repr

/-! ### Ports and links (chapter 2) -/

/-- A DATA frame kept for replay (R58). -/
structure TxFrame where
  seq : Nat
  tc : Nat
  body : List Byte
  poison : Bool := false
  /-- Ingress logical port and multicast mark, for the egress record (Table 3-6). -/
  ilp : Nat := 0x3FF
  mcast : Bool := false
  sentAt : Nat := 0
  deriving DecidableEq, Repr

/-- A lane degrade or restore under way (R65 to R69). -/
structure LaneMove where
  /-- New lane set, bit n for lane n of the physical port. -/
  mask : Nat
  switchCw : Nat
  /-- This end sends DEGRADE or RESTORE and waits for the answer. -/
  initiator : Bool
  restore : Bool
  acked : Bool := false
  /-- SWITCH_CW has come and the answer has not. -/
  switched : Bool := false
  startAt : Nat := 0
  sentAt : Nat := 0
  deriving DecidableEq, Repr

/-- A MACsec secure association (R75 to R77): installed association number, SSCI, salt and next packet number. -/
structure Sa where
  an : Nat
  ssci : Nat
  salt : List Byte
  key : List Byte
  pn : Nat
  deriving DecidableEq, Repr

/-- One logical port (R41, R70). State codes are those of Table 2-10. -/
structure LPort where
  st : Nat := 0
  /-- NEXT of the receiver, SEQ of the next DATA frame sent. -/
  next : Nat := 0
  txSeq : Nat := 0
  /-- SENT[n], the peer's CREDIT_LIMIT[n], and the limit this Talik has given its peer. -/
  sent : List Nat := List.replicate 8 0
  peerLimit : List Nat := List.replicate 8 0
  myLimit : List Nat := List.replicate 8 0
  /-- Cells freed per class since the last ACK or NAK body (R56). -/
  freed : List Nat := List.replicate 8 0
  replay : List TxFrame := []
  /-- Sequence numbers still to be retransmitted. -/
  replayQ : List Nat := []
  /-- Start of the last replay, and replays in a row from it (R59, R60). -/
  replayFrom : Option Nat := none
  replayRun : Nat := 0
  /-- Last NAK sent: ACKSEQ, REASON and instant (R57). -/
  nak : Option (Nat × Nat × Nat) := none
  /-- Accepted DATA frames not yet acknowledged, and the instant of the first. -/
  unacked : Nat := 0
  unackedAt : Nat := 0
  lastTx : Nat := 0
  lastRx : Nat := 0
  epoch : Nat := 0
  gotInit : Bool := false
  gotAck : Bool := false
  peerNode : Nat := 0
  peerCaps : Nat := 0
  /-- What the peer's INIT of the exchange under way announced. -/
  inNode : Nat := 0
  inCaps : Nat := 0
  inLimit : List Nat := List.replicate 8 0
  /-- Instant of PCS lock. -/
  lockAt : Nat := 0
  initAt : Nat := 0
  /-- Current lane set and failed lanes, bit n for lane n of the physical port. -/
  lanes : Nat := 0
  failed : Nat := 0
  move : Option LaneMove := none
  /-- Failed lanes that have been retrained and have run error-free for RESTORE_MS (R69). -/
  good : Nat := 0
  /-- Flap penalty: value at the last flap, instant of that flap, and value last computed (R72). -/
  penalty : Nat := 0
  penaltyAt : Nat := 0
  penNow : Nat := 0
  /-- Instant at which RE_HOME was entered or restarted, and whether the INIT under way re-homes (R73, R74). -/
  rehomeAt : Nat := 0
  rehoming : Bool := false
  /-- Instant at which the port left the in-service states (R165). -/
  downAt : Option Nat := none
  txSa : List Sa := []
  rxSa : List Sa := []
  /-- Current transmit association number. -/
  txAn : Option Nat := none
  rekeyed : Bool := false
  /-- Priorities the peer paused, with the instant the pause ends, and priorities this port sent XOFF for (R45, R96). -/
  paused : SMap Nat := []
  xoff : Nat := 0
  deriving DecidableEq, Repr

/-! ### Switch core (chapter 3) -/

/-- What a frame in the switch core carries. -/
inductive Cargo where
  /-- A KMT transport packet. -/
  | kmt (p : Kmt)
  /-- A PLAIN frame. -/
  | plain (f : PlainFrame)
  /-- A command reply frame: UDP or raw, addressed back to the request's source; from the link header on. -/
  | reply (f : CmdFrame)
  deriving DecidableEq, Repr

/-- One member output of a frame still to receive cells: scheduler output, logical port (or 0x3FF), cells moved. -/
structure Leg where
  out : Nat
  lp : Nat
  moved : Nat := 0
  deriving DecidableEq, Repr

/-- A frame in a virtual output queue (R88) or multicast queue. -/
structure VFrame where
  id : Nat
  inp : Nat
  /-- Ingress logical port, 0x3FF for an internal input. -/
  ilp : Nat := 0x3FF
  tc : Nat
  legs : List Leg
  mcast : Bool := false
  cells : Nat
  /-- The last cell carries POISON (R98). -/
  poison : Bool := false
  cargo : Cargo
  comp : Nat := 0
  gate : Gate := none
  /-- Crest whose buffer holds it, and its cells of the class's internal reserve and of the shared pool (R96). -/
  crest : Nat := 0
  resv : Nat := 0
  pool : Nat := 0
  /-- Its cells are in the buffer; an internal input that finds no cell stalls. -/
  inBuf : Bool := true
  /-- Cells of link credit returned to the ingress logical port when it leaves (R51). -/
  credit : Nat := 0
  deriving DecidableEq, Repr

/-- A frame that has reached an output's egress queue. -/
structure EFrame where
  lp : Nat
  tc : Nat
  cargo : Cargo
  poison : Bool := false
  ilp : Nat := 0x3FF
  mcast : Bool := false
  comp : Nat := 0
  deriving DecidableEq, Repr

/-- The capture ring (R106, R354). -/
structure Capture where
  space : Nat
  offset : Nat
  size : Nat
  comp : Nat
  pages : List Nat
  deriving DecidableEq, Repr

/-- Switch core state. -/
structure Switch where
  voq : List VFrame := []
  egress : List EFrame := []
  nextId : Nat := 0
  /-- Grant pointers keyed 4·output + level, accept pointers keyed 4·input + level; unlisted 0 (R89). -/
  gptr : SMap Nat := []
  aptr : SMap Nat := []
  /-- Class last sent, keyed 260·input + output (R90). -/
  lastTc : SMap Nat := []
  /-- Level-3 grants of each output in the last 16 cycles, newest in bit 0 (R87). -/
  l3 : SMap Nat := []
  /-- Instants of the cancellations in the last 1 ms (R85). -/
  resyncs : List Nat := []
  capture : Option Capture := none
  capIdx : Nat := 0
  capSeq : Nat := 0
  /-- Frames seen since the last recorded one, at each point (R106). -/
  capSkip : List Nat := [0, 0, 0]
  deriving DecidableEq, Repr

/-- A packet accepted at a port (or delivered at an internal output) whose own command has not run yet. -/
structure RxPkt where
  lp : Nat
  tc : Nat
  pkt : Kmt
  /-- Cells of link credit returned once it has been handled (R51). -/
  credit : Nat := 0
  deriving DecidableEq, Repr

/-- What the block sends to the outside, in order. -/
inductive Out where
  /-- A KMT DATA frame on a logical port: bytes from the destination MAC to the end of the last block, stomped FCS (R99),
  and MACsec packet number. -/
  | data (lp : Nat) (bytes : List Byte) (stomp : Bool) (pn : Option Nat)
  /-- An ACK, NAK or LINKCTL frame: bytes from the destination MAC to the end of the padding. -/
  | link (lp : Nat) (bytes : List Byte)
  /-- A lane control marker, sent on every transmit lane of the set given (Table 2-8). -/
  | marker (lp lanes : Nat) (word : Nat)
  | plain (lp : Nat) (f : PlainFrame) (stomp : Bool)
  /-- PFC: priority and XOFF (true) or XON. -/
  | pfc (lp prio : Nat) (xoff : Bool)
  | arp (lp : Nat) (ip mac dstMac dstIp : Nat)
  | nadv (lp : Nat) (ip mac dstMac dstIp : Nat)
  | reply (lp : Nat) (f : CmdFrame)
  /-- A management message of a session: MSTATUS and payload. -/
  | mgmt (sess : Nat) (seq : Nat) (mop : Nat) (status : Nat) (bytes : List Byte)
  /-- A handshake message to a peer that has no session yet: MSTATUS and parts. -/
  | shake (peer : Nat) (mop status : Nat) (parts : List (List Byte))
  /-- SMBus: data of a Block Read, or a NACK. -/
  | smb (bytes : List Byte)
  | smbNack
  /-- JTAG data register shifted out: width and value. -/
  | tdo (width value : Nat)
  deriving DecidableEq, Repr

/-! ### Commands, queues and rings (chapter 12) -/

/-- A command packet admitted to a queue (R343, R345). -/
structure CmdRec where
  opcode : Nat
  flags : Nat
  comp : Nat
  queue : Nat
  cseq : Nat
  ring : Nat
  job : Nat
  ctx : Nat
  params : List Byte
  /-- The reserved header fields, STATUS and T_NOW are zero (R5, Table 12-2). -/
  hdrOk : Bool := true
  /-- The source holds OPER (R341). -/
  oper : Bool
  lp : Nat
  /-- The frame that carried it: encapsulation and addresses for the reply (R340). -/
  frame : CmdFrame
  deriving DecidableEq, Repr

/-- A saved reply of the duplicate window (Table 12-3). -/
structure Saved where
  cseq : Nat
  opcode : Nat
  status : Nat
  load : Nat
  params : List Byte
  deriving DecidableEq, Repr

/-- One of a composition's queues. -/
structure Queue where
  depth : Nat := 0
  next : Nat := 0
  waiting : List CmdRec := []
  /-- CSEQs of long commands started and not completed. -/
  running : List Nat := []
  saved : List Saved := []
  /-- A short command that has started and waits for the Partner (R422). -/
  busy : Option CmdRec := none
  deriving DecidableEq, Repr

/-- What a running long command waits for. -/
inductive LongFor where
  | revoke (ext : Nat)
  | recall (region : Nat)
  | role (k : UKind) (unit : Nat)
  | remove (comp : Nat)
  | reset (comp : Nat)
  | quiesce
  | promote
  | card (n : Nat)
  /-- Nothing: it ends at once. -/
  | now
  deriving DecidableEq, Repr

/-- A long command that runs on after its PENDING reply (R346). -/
structure LongCmd where
  cmd : CmdRec
  what : LongFor
  deriving DecidableEq, Repr

/-- A result entry (R358). `deadline` and `dlCounter`: the deadline rule that is checked when it is written (R361), 0 for none. -/
structure Entry where
  type : Nat
  status : Nat
  payload : List Byte
  deadline : Nat := 0
  /-- The unit that a completion comes from: key of EUnit, and the counters of deadline misses and completions. -/
  unit : Nat := 0
  dlCounter : Nat := 0
  doneCtr : Nat := 0
  /-- Bits of CMD_ATTN_CAUSE that its writing sets (R364). -/
  attn : Nat := 0
  /-- Place of the time of writing in the payload, and the descriptor that ends with it; 0 for none. -/
  tAt : Nat := 0
  desc : Nat := 0
  deriving DecidableEq, Repr

/-- A result ring (R355 to R361). Filled entries are keyed by their count k. -/
structure Ring where
  comp : Nat
  num : Nat
  esize : Nat
  nent : Nat
  space : Nat
  offset : Nat
  page : Nat
  npages : Nat
  pi : Nat := 0
  ci : Nat := 0
  lost : Nat := 0
  /-- Events dropped since the last event entry. -/
  lostNow : Nat := 0
  entries : SMap Entry := []
  /-- Producers waiting for space, in order. -/
  waiting : List Entry := []
  deriving DecidableEq, Repr

/-- The command interface. -/
structure Cmd where
  /-- Queues keyed 4·composition + queue. -/
  queues : SMap Queue := [(0, { depth := 64 })]
  longs : List LongCmd := []
  rings : List Ring := []
  /-- CMD_ATTN_CAUSE. -/
  cause : Nat := 0
  /-- HOST_RDY is held low by intake pressure until intake falls below INTAKE_HI / 2 (Table 12-10). -/
  pressed : Bool := false
  deriving DecidableEq, Repr

/-! ### Transport (chapter 4) -/

/-- A shared space (R119). `shadow`: it backs the Partner's space (R421). -/
structure Space where
  comp : Nat
  shadow : Bool := false
  deriving DecidableEq, Repr

/-- A job (R120): pairs of a space with rights R, W, A as bits 2, 1, 0. -/
structure Job where
  comp : Nat
  pairs : List (Nat × Nat)
  shadow : Bool := false
  deriving DecidableEq, Repr

/-- An extent (R119). `size` is a byte count; `base` a tray-local address or the first HBM page number. -/
structure Extent where
  space : Nat
  offset : Nat
  size : Nat
  hbm : Bool
  base : Nat
  tray : Nat := 0
  draining : Bool := false
  /-- Route Card whose window it belongs to. -/
  card : Option Nat := none
  deriving DecidableEq, Repr

/-- For whom a memory operation or tray request is made. -/
inductive Why where
  /-- A load/store request in flight. -/
  | req (id : Nat)
  /-- A combining window. -/
  | window (id : Nat)
  /-- TFENCE of a revoke. -/
  | fence (ext : Nat)
  /-- The Cairn-word write of a publish. -/
  | cairn (id : Nat)
  /-- A directory transaction's data, keyed by space and line address. -/
  | line (space line : Nat)
  /-- Data written back to memory for a line. -/
  | lineWb (space line : Nat)
  /-- A read that the block issues for a unit, keyed by the read. -/
  | unit (read : Nat)
  /-- A write that the block issues for a unit or card, whose answer nothing waits for. -/
  | post
  /-- A tray intent reissued in a takeover (R432), keyed by lane and LSN. -/
  | intent (lane lsn : Nat)
  deriving DecidableEq, Repr

/-- An operation at the HBM memory units: bytes read, bytes written, or an atomic of width `w`. -/
inductive MemOp where
  | read (len : Nat)
  | write (data : List Byte)
  /-- Opcode of Table 4-2 and operand bytes. -/
  | atomic (op w : Nat) (operand : List Byte)
  deriving DecidableEq, Repr

/-- An operation given to the memory units and not performed yet. -/
structure HbmOp where
  id : Nat
  addr : Nat
  op : MemOp
  why : Why
  gate : Gate := none
  deriving DecidableEq, Repr

/-- A load/store request in flight (R123): from the end of its translation until its response is sent. -/
structure Req where
  id : Nat
  lp : Nat
  tc : Nat
  pkt : Kmt
  crest : Nat
  ext : Option Nat
  at_ : Nat
  /-- Requests that must end first (FLUSH, PUBLISH). -/
  waits : List Nat := []
  deriving DecidableEq, Repr

/-- A tracker entry: a tray request in flight (R130). -/
structure TrayReq where
  tag : Nat
  tray : Nat
  lp : Nat
  tc : Nat
  crest : Nat
  pkt : Kmt
  ext : Option Nat
  sentAt : Nat
  reissued : Bool := false
  sent : Bool := true
  why : Why
  gate : Gate := none
  /-- Lane and LSN of its TRI record. -/
  intent : Gate := none
  deriving DecidableEq, Repr

/-- A combining window (R133 to R136). -/
structure Window where
  id : Nat
  crest : Nat
  tc : Nat
  op : Nat
  space : Nat
  addr : Nat
  len : Nat
  at_ : Nat
  isOpen : Bool := true
  reqs : List Nat
  deriving DecidableEq, Repr

/-- A reply-cache entry (R142). -/
structure Cached where
  crest : Nat
  src : Nat
  tag : Nat
  status : Nat
  data : List Byte
  at_ : Nat
  deriving DecidableEq, Repr

/-- A token bucket (R138): fill in quarter bytes at an instant, and the effective rate in quarter bytes per ns. -/
structure Bucket where
  fill : Int
  at_ : Nat
  rate : Nat
  deriving DecidableEq, Repr

/-- A revocation under way (R143). -/
structure Revoke where
  ext : Nat
  at_ : Nat
  normal : Nat := 0
  term : Nat := 0
  /-- The recall walk of a COHERENT extent is still running (R169). -/
  walking : Bool := false
  fencing : Bool := false
  fenceFailed : Bool := false
  deriving DecidableEq, Repr

/-- A window as the AUTO measurement sees it, open whether or not combining is on (R137). -/
structure VWin where
  op : Nat
  space : Nat
  addr : Nat
  len : Nat
  at_ : Nat
  id : Nat
  n : Nat := 1
  deriving DecidableEq, Repr

/-- Requests measured for AUTO combining: joinable and would-have-joined, per Crest and class (R137). -/
structure CombCount where
  joinable : Nat := 0
  joined : Nat := 0
  recent : List VWin := []
  deriving DecidableEq, Repr

/-- Transport state. -/
structure Xlt where
  spaces : SMap Space := []
  jobs : SMap Job := []
  extents : SMap Extent := []
  reqs : List Req := []
  trays : List TrayReq := []
  ops : List HbmOp := []
  windows : List Window := []
  cache : List Cached := []
  buckets : SMap Bucket := []
  revokes : List Revoke := []
  /-- SWX_COMB_STATE: ON bits and CHANGES. -/
  combOn : Nat := 0
  combChanges : Nat := 0
  /-- Crests (bits) whose combining has run a decision since the reset: before it a written pin is in force at once (R31). -/
  combRun : Nat := 0
  /-- XLT_RATE_CFG.MODE in force, and whether the rate adaptation has run since the reset (R31). -/
  rateFixed : Bool := false
  rateRun : Bool := false
  /-- Keyed 2·Crest for TC1, 2·Crest + 1 for TC3. -/
  comb : SMap CombCount := []
  /-- Next internal identifier. -/
  nextId : Nat := 0
  /-- TAGs lately sent to a tray: tray, TAG, instant (R131). -/
  tags : List (Nat × Nat × Nat) := []
  deriving DecidableEq, Repr

/-! ### Faults, Partner and Seconding (chapter 15) -/

/-- A fault record (Table 15-2). -/
structure FaultRec where
  cls : Nat
  cause : Nat
  comp : Option Nat
  object : Nat
  tEvt : Nat
  counter : Nat
  detail : Nat
  deriving DecidableEq, Repr

/-- A mirror log record (R423, Table 15-4). -/
structure LogRec where
  rtype : Nat
  comp : Nat
  body : List Byte
  deriving DecidableEq, Repr

/-- An MLOG packet not yet answered. -/
structure MlogPkt where
  id : Nat
  lane : Nat
  first : Nat
  recs : List LogRec
  sentAt : Nat
  lp : Nat
  deriving DecidableEq, Repr

/-- One of the log's four lanes, as logger and as Partner (R424). -/
structure Lane where
  nextLsn : Nat := 1
  acked : Nat := 0
  applied : Nat := 0
  /-- As the Leader: digest sum of the window; as the Second: its own sum (R439). -/
  digest : Nat := 0
  deriving DecidableEq, Repr

/-- An effect held until the Partner has answered (R425), other than gated packets and HBM operations. -/
inductive Held where
  /-- A command of R422 whose CONFIG record is on the way. -/
  | cmd (c : CmdRec)
  /-- A tray request to be sent. -/
  | tray (tag : Nat)
  /-- A result entry. -/
  | ring (comp ring : Nat) (e : Entry)
  /-- A Cairn of a publish in service. -/
  | cairn (id : Nat)
  /-- A TABLE_PUBLISH with its table record (R422). -/
  | table (c : CmdRec) (bytes : List Byte)
  /-- The OK of a short command that has taken its effect. -/
  | short (c : CmdRec) (params : List Byte)
  deriving DecidableEq, Repr

/-- An open tray intent (TRI) or directory transaction (DIRTX) held as the Partner (Table 15-4). -/
structure Intent where
  lane : Nat
  lsn : Nat
  dir : Bool
  body : List Byte
  comp : Nat
  /-- Reissued in the takeover and not answered yet; answers of a directory transaction still missing. -/
  reissued : Bool := false
  waits : List Nat := []
  deriving DecidableEq, Repr

/-- Seconding (R436 to R441). -/
structure Second where
  /-- FLT_SECOND_STATUS.PHASE: 0 none, 1 SNAPSHOT, 2 FOLLOW, 3 PROMOTING. -/
  phase : Nat := 0
  leader : Nat := 0
  target : Nat := 0
  cleanRun : Nat := 0
  mismatchW : Nat := 0
  mismatchLanes : Nat := 0
  /-- MARKs taken on each lane; windows, by their MARK's count, in which a lane differed, or (lane 4) that the Leader skipped. -/
  marks : List Nat := [0, 0, 0, 0]
  bad : List (Nat × Nat) := []
  promoteAt : Nat := 0
  /-- Chunks of the snapshot received, or as the Leader sent: space · 2^40 + offset / 2048, and 2^60 more for the directory. -/
  pages : List Nat := []
  /-- As the Leader: 1 the snapshot is being sent, 2 windows are being marked, 3 acknowledged mirroring has begun (R440). -/
  leading : Nat := 0
  window : Nat := 0
  /-- As the Leader: the Second has asked to be promoted (R440). As the Second: its Leader is lost (R441). -/
  asked : Bool := false
  lost : Bool := false
  deriving DecidableEq, Repr

/-- Faults, Partner, mirror log and Seconding. -/
structure Flt where
  log : SMap FaultRec := []
  logWr : Nat := 0
  lastClass : Nat := 0
  stopped : Bool := false
  fenced : Bool := false
  /-- The fence of R429 that only a reset lifts. -/
  fenceKept : Bool := false
  takeover : Bool := false
  paired : Bool := false
  halfClash : Bool := false
  /-- Last HBEAT from the Partner, and what this Talik knows of it. -/
  heardAt : Option Nat := none
  partnerEp : Nat := 0
  /-- Partner declared lost, and its NODE_ID: heartbeats name it while FLT_PARTNER still does (R430). -/
  peerLost : Bool := false
  lostNode : Nat := 0
  /-- Heartbeats heard: endpoint ID, NODE_ID and instant (R436). -/
  heard : List (Nat × Nat × Nat) := []
  /-- LOST notices sent on: NODE_ID and instant (R430). -/
  notices : List (Nat × Nat) := []
  hbeatAt : Nat := 0
  lanes : List Lane := List.replicate 4 {}
  sent : List MlogPkt := []
  held : List (Nat × Nat × Held) := []
  intents : List Intent := []
  /-- Statuses other than OK of CONFIG records applied, by LSN: a record sent again is answered as before (R424). -/
  cfgBad : SMap Nat := []
  second : Second := {}
  deriving DecidableEq, Repr

/-! ### Compositions and security (chapter 13) -/

/-- A composition (R366, R367). States: 0 NONE, 1 ACTIVE, 2 RESETTING, 3 REMOVING. -/
structure Comp where
  st : Nat := 0
  conf : Bool := false
  /-- HBM quota and charge per Crest in pages; tray quota in GiB and charge in 2 MiB units (R315, R316). -/
  hbmQ : List Nat := [0, 0, 0, 0]
  hbmUse : List Nat := [0, 0, 0, 0]
  trayQ : Nat := 0
  trayUse : Nat := 0
  /-- Totals of Table 11-3. -/
  hbmMs : Nat := 0
  trayMs : Nat := 0
  hbmBytes : Nat := 0
  trayBytes : Nat := 0
  haulBytes : Nat := 0
  /-- Created since the last device cold reset (R389). -/
  made : Bool := false
  /-- Pages that had been charged when its removal began, and the beginning of their scrub (R392). -/
  remPages : List Nat := []
  scrubAt : Option Nat := none
  deriving DecidableEq, Repr

/-- What an allocated HBM page serves: the shares of R319. -/
inductive Share where
  | dir | win | sys | ls
  deriving DecidableEq, Repr

/-- An allocated HBM page. -/
structure Page where
  comp : Nat
  share : Share
  deriving DecidableEq, Repr

/-- One piece of a read that the block issues for a unit: in HBM at an address, or in a tray under a TAG. -/
structure Piece where
  hbm : Bool
  addr : Nat
  len : Nat
  tag : Nat := 0
  got : Option (Nat × List Byte) := none
  deriving DecidableEq, Repr

/-- A read that the block issues for a unit or card (R124): done when every tray piece has been answered. -/
structure URead where
  comp : Nat
  pieces : List Piece
  /-- Refused at once with a status of Table 4-3. -/
  refused : Option Nat := none
  deriving DecidableEq, Repr

/-- A management session (R382 to R384). Rights letters of Table 13-6, R W A K P C O, as bits 0 to 6. -/
structure Session where
  id : Nat
  peer : Nat
  rights : Nat
  comps : Nat
  /-- Reads of the HUT block only (R384); a recovery session (R454). -/
  hutOnly : Bool := false
  recovery : Bool := false
  /-- Controller-to-Talik and Talik-to-controller keys. -/
  keyIn : List Byte := []
  keyOut : List Byte := []
  /-- SEQ last accepted, SEQ last sent, instant of the last message. -/
  rx : Nat := 0
  tx : Nat := 0
  at_ : Nat := 0
  deriving DecidableEq, Repr

/-- A key exchange begun by a HELLO (R382): the controller's key, the seed of the Talik's encapsulation key, the messages so far. -/
structure Shake where
  peer : Nat
  rights : Nat
  comps : Nat
  hutOnly : Bool := false
  recovery : Bool := false
  key : List Byte
  seed : Nat
  said : List Byte
  deriving DecidableEq, Repr

/-- Identity, flash-derived secrets, sessions and keys (chapter 13). -/
structure Security where
  /-- The device secret has been reconstructed (R373). -/
  pufOk : Bool := false
  /-- The running image (R374), the applied capsule (R379), OWNED (R377), and the owner anchor of measurement 4. -/
  image : Option Image := none
  capsule : Option Capsule := none
  owned : Bool := false
  ownerMeas : Option (List Byte) := none
  confSeen : Bool := false
  /-- Seed of this boot's key-release key (Table 13-5). -/
  krSeed : Nat := 0
  sessions : List Session := []
  shakes : List Shake := []
  /-- NODE_ID; zero until stage PUF has derived it (R373). -/
  nodeId : Nat := 0
  /-- Weight keys held: composition, KGEN, key; and KGEN_HIGH of each composition (R387). -/
  keys : List (Nat × Nat × List Byte) := []
  kgenHigh : SMap Nat := []
  deriving DecidableEq, Repr

/-! ### Coherent Aperture and software-coherent regions (chapter 5) -/

/-- A region (R146, Table 5-11). Modes: 0 COHERENT, 1 SOFT, 2 STREAM. -/
structure Region where
  space : Nat
  base : Nat
  size : Nat
  mode : Nat
  conf : Bool := false
  apt : Nat := 0
  cairn : Nat := 0
  cwEn : Bool := false
  cwAddr : Nat := 0
  /-- First page of the region's directory on each Crest (R149). -/
  dirRuns : List Nat := []
  removing : Bool := false
  deriving DecidableEq, Repr

/-- An agent number of an aperture (Table 5-10). States: 0 FREE, 1 LIVE, 2 DEAD. -/
structure Agent where
  st : Nat := 0
  cause : Nat := 0
  ep : Nat := 0
  deriving DecidableEq, Repr

/-- A directory entry (Table 5-2). States: 0 I, 1 S, 2 E, 3 M, 4 P. -/
structure DirEnt where
  st : Nat := 0
  coarse : Bool := false
  ptrs : List Nat := []
  mask : Nat := 0
  deriving DecidableEq, Repr

/-- A probe not answered yet (R154). -/
structure Probe where
  tag : Nat
  agent : Nat
  ep : Nat
  op : Nat
  sentAt : Nat
  /-- Its repeat with RTX = 1 has been sent (R165). -/
  rtx : Bool := false
  /-- Delayed by a Belay hold (R162). -/
  delayed : Bool := false
  deriving DecidableEq, Repr

/-- A request at a directory slice for one line: a coherent opcode, an uncached RD, WR or atomic, or 0 for the recall walk. -/
structure LineReq where
  op : Nat
  agent : Nat := 0
  whom : Why
  pkt : Kmt
  lp : Nat := 0x3FF
  tc : Nat := 1
  crest : Nat := 0
  /-- The multi-line request that an uncached line request belongs to (R161). -/
  multi : Option Nat := none
  deriving DecidableEq, Repr

/-- A busy line (R157). Phases: 0 entry being read, 1 probes out, 2 memory, 3 a grant waits for a hold record, 4 ended. -/
structure Txn where
  space : Nat
  line : Nat
  req : LineReq
  phase : Nat := 0
  probes : List Probe := []
  /-- The line as a probe returned it. -/
  data : Option (List Byte) := none
  /-- A probe was answered POISONED. -/
  pois : Bool := false
  /-- The returned line is being written to memory. -/
  wb : Bool := false
  /-- Old value of an atomic merged over a returned line. -/
  old : List Byte := []
  /-- The state to be granted, the entry it leaves, and the bytes of a grant that waits for a hold record. -/
  grant : Nat := 0
  next : DirEnt := {}
  gdata : Option (List Byte) := none
  /-- A DIRTX record is open, and the gate of its answer. -/
  logged : Bool := false
  gate : Gate := none
  /-- Requests for the line in order of arrival. -/
  queue : List LineReq := []
  deriving DecidableEq, Repr

/-- A Belay hold record (R162, R163). -/
structure Belay where
  space : Nat
  line : Nat
  agent : Nat
  till : Nat
  deriving DecidableEq, Repr

/-- A recall walk (R169) over the lines of a range, for an extent's revocation or a region's removal. -/
structure Walk where
  id : Nat
  space : Nat
  lo : Nat
  hi : Nat
  due : Nat
  ext : Option Nat := none
  region : Option Nat := none
  deriving DecidableEq, Repr

/-- A reclaim walk of a dead agent (R166). -/
structure Reclaim where
  apt : Nat
  agent : Nat
  due : Nat
  deriving DecidableEq, Repr

/-- An uncached request to a COHERENT region, handled one line at a time (R161). -/
structure Multi where
  id : Nat
  whom : Why
  pkt : Kmt
  lp : Nat
  tc : Nat
  crest : Nat
  /-- Lines not started yet. -/
  left : List Nat
  /-- A line is at its slice. -/
  busy : Bool := false
  got : List (Nat × List Byte) := []
  deriving DecidableEq, Repr

/-- Who made a publish: a PUBLISH request in flight, or a REGION_PUBLISH command. -/
inductive PubFrom where
  | req (id : Nat)
  | cmd (c : CmdRec)
  deriving DecidableEq, Repr

/-- A publish in a region's queue (R170). Stages: 0 waiting or flushing, 1 Cairn word being written, 2 CAIRN record on the way. -/
structure Pub where
  id : Nat
  region : Nat
  cairn : Nat
  who : PubFrom
  stage : Nat := 0
  deriving DecidableEq, Repr

/-- Directory state. Entries, cached entries and lines are keyed space · 2^40 + line / 64; agents 512 · aperture + number. -/
structure Dir where
  regions : SMap Region := []
  /-- Space of each valid aperture index (R148). -/
  apts : SMap Nat := []
  agents : SMap Agent := []
  ents : SMap DirEnt := []
  /-- Lines whose entries the directory caches hold (R156). -/
  cache : List Nat := []
  txns : List Txn := []
  holds : List Belay := []
  walks : List Walk := []
  reclaims : List Reclaim := []
  multis : List Multi := []
  pubs : List Pub := []
  deriving DecidableEq, Repr

/-! ### Engine units (chapters 6 to 9) -/

/-- A role change under way (R178). -/
structure Change where
  role : Nat
  comp : Nat
  /-- Status with which descriptors still active end: ABORTED, or TENANT_GONE (R205), or KEY_RETIRED (R295). -/
  status : Nat := 0x41
  /-- Instant at which DRAIN_US has passed. -/
  drainAt : Option Nat := none
  deriving DecidableEq, Repr

/-- A unit: tile, Haul engine or Rope (R25). Keys: engine units 0 to 127, Haul units 128 to 191. -/
structure EUnit where
  /-- A Rope is formed under this ID; tiles and Haul engines always exist. -/
  formed : Bool := false
  /-- Engine: 0 IDLE, 1 REDUCE, 2 GATHER, 3 FILTER. Haul: 0 IDLE, 1 EXPAND. -/
  role : Nat := 0
  comp : Nat := 0
  gen : Nat := 0
  /-- 0 READY, 1 CHANGING, 2 SCRUB. -/
  st : Nat := 0
  change : Option Change := none
  scrubAt : Nat := 0
  rstBusy : Bool := false
  rstAt : Nat := 0
  failed : Bool := false
  parent : Option Nat := none
  members : List Nat := []
  deriving DecidableEq, Repr

/-- A tile's share of a descriptor's items, [lo, hi) (R185), and its progress: segments or blocks retired. -/
structure ShareSt where
  tile : Nat
  lo : Nat
  hi : Nat
  /-- It has ended with a failure of its own (R204). -/
  dead : Bool := false
  deriving DecidableEq, Repr

/-- A member of a collective node (Table 7-3). -/
structure Member where
  ep : Nat
  unit : Nat := 0
  child : Bool := false
  src : Bool := false
  gen : Nat := 0
  ridx : Nat := 0
  /-- It has answered the release. -/
  released : Bool := false
  deriving DecidableEq, Repr

/-- A chunk of the accumulation window: contributors folded and accumulators, one per element (R192, R214). -/
structure ChunkAcc where
  who : List Nat := []
  acc : List (Nat × Nat) := []
  deriving DecidableEq, Repr

/-- A request whose answer waits: port, class and packet. -/
structure Waiting where
  lp : Nat
  tc : Nat
  pkt : Kmt
  deriving DecidableEq, Repr

/-- A collective node (chapter 7). -/
structure Node where
  members : List Member := []
  chunks : SMap ChunkAcc := []
  /-- Segments retired, per share. -/
  segs : List Nat := []
  /-- Contributors folded into chunks that have retired, for the fold records (R192). -/
  emitted : Nat := 0
  upDone : Bool := false
  /-- Result chunks sent or forwarded (R218), kept for a re-send (R226). -/
  results : SMap (List Byte) := []
  /-- Result chunks of the parent not answered yet, and its release. -/
  down : SMap Waiting := []
  rel : Option Waiting := none
  relSent : Bool := false
  deriving DecidableEq, Repr

/-- A bag of a gather round (R240 to R244). -/
structure Bag where
  /-- Chunks taken, and the last chunk once it is known. -/
  got : List Nat := []
  last : Option Nat := none
  /-- Entries taken. -/
  entries : Nat := 0
  complete : Bool := false
  /-- Occurrence counts: rows with counts. -/
  counts : SMap Nat := []
  hotCounts : SMap Nat := []
  dropped : Nat := 0
  status : Nat := 0
  flags : Nat := 0
  acc : Option (List (Nat × Nat)) := none
  /-- Saturated counts of flushed entries. -/
  v : Nat := 0
  deriving DecidableEq, Repr

/-- A gather round (R243 to R246). Phases: 0 intake, 1 flushing, 2 closed and pooling. -/
structure Round where
  lo : Nat
  n : Nat
  phase : Nat := 0
  bags : SMap Bag := []
  /-- Rows still to be requested, rows requested and not pooled, and hot rows still to be pooled. -/
  todo : List Nat := []
  out : List Nat := []
  hotTodo : List Nat := []
  deriving DecidableEq, Repr

/-- A share of a gather batch: its next bag, its open rounds, whether its first round has been opened, and whether it uses
the tile's hot rows. -/
structure GShare where
  next : Nat
  rounds : List Round := []
  begun : Bool := false
  hot : Bool := false
  deriving DecidableEq, Repr

/-- A gather batch (chapter 8). -/
structure Batch where
  table : Nat
  version : Nat
  shares : List GShare := []
  /-- Fold records: CONTRIB, ADDR and PHASE of the index packets taken (R192); bags ended by R242. -/
  folded : List (Nat × Nat × Nat) := []
  cut : List Nat := []
  /-- Bags sent with status OK, and the trailer's sums (Table 8-9). -/
  ok : Nat := 0
  dropped : Nat := 0
  vsum : Nat := 0
  rows : Nat := 0
  /-- The trailer has been sent. -/
  trailer : Bool := false
  deriving DecidableEq, Repr

/-- A share of a filter run: ranges of records evaluated, blocks retired, records accepted, and the TOPK list in rank order. -/
structure FShare where
  seen : List (Nat × Nat) := []
  retired : List Nat := []
  accepted : List Nat := []
  best : List (Nat × Nat × List Byte) := []
  /-- PRED blocks sent; the list has been sent to the merging tile. -/
  sent : List Nat := []
  listed : Bool := false
  deriving DecidableEq, Repr

/-- A filter run (chapter 9). -/
structure Run where
  shares : List FShare := []
  /-- Class of the run's first FRECORD (R264). -/
  tc : Option Nat := none
  evaluated : Nat := 0
  accepts : Nat := 0
  /-- Entries or blocks delivered, and entries of the final list delivered. -/
  entries : Nat := 0
  /-- CONTRIBs of the list packets merged, and the merged list. -/
  got : List Nat := []
  merged : List (Nat × Nat × List Byte) := []
  final : Bool := false
  trailer : Bool := false
  deriving DecidableEq, Repr

/-- What a descriptor does. -/
inductive Work where
  | node (n : Node)
  | batch (b : Batch)
  | run (r : Run)
  deriving DecidableEq, Repr

/-- An active engine descriptor (R189). `raw`: its header and body. -/
structure Desc where
  id : Nat
  unit : Nat
  raw : List Byte
  shares : List ShareSt
  flags : Nat := 0
  done : Nat := 0
  /-- First member failure: unit ID and status (R29, R187). -/
  fail : Option (Nat × Nat) := none
  work : Work
  /-- Ownership (R221 to R226): epoch, last commit, being handed over, a standby copy not claimed. -/
  epoch : Nat := 1
  commit : Nat := 0
  moving : Bool := false
  standby : Bool := false
  /-- Its completion waits for its ring or for the Partner. -/
  posting : Bool := false
  /-- Acceptance order on the unit. -/
  seq : Nat := 0
  deriving DecidableEq, Repr

/-- What a packet that a unit has sent carries. -/
inductive SentFor where
  | part (chunk : Nat)
  | result (chunk : Nat)
  | release
  | resend
  | abort
  /-- Bag packet of a batch. -/
  | bags
  | trailer
  /-- GROWREQ of a tile's round (its first bag), or of a hot load: shard and rows; a row asked for alone; a repeat sent. -/
  | rows (share : Nat) (lo : Option Nat) (shard : Nat) (rows : List Nat) (alone again : Bool)
  /-- FOUTPUT of SELECT or PRED: the blocks whose outputs it holds, and the entries or blocks it delivers. -/
  | output (share : Nat) (blocks : List Nat) (entries : Nat)
  | list (share : Nat)
  | final (entries : Nat)
  deriving DecidableEq, Repr

/-- An engine packet sent and not answered: by every endpoint of `need` for a multicast. -/
structure ESent where
  tag : Nat
  desc : Nat
  inp : Nat
  tc : Nat
  pkt : Kmt
  what : SentFor
  group : Option Nat := none
  need : List Nat := []
  at_ : Nat
  /-- It has left; a fenced Talik holds its results back (R428). -/
  gone : Bool := true
  deriving DecidableEq, Repr

/-- An engine descriptor that has ended with a status other than OK (Table 6-8). -/
structure Ended where
  unit : Nat
  comp : Nat
  descId : Nat
  status : Nat
  at_ : Nat
  deriving DecidableEq, Repr

/-- A version of an embedding table: its record (R234). -/
structure Ver where
  version : Nat
  bytes : List Byte
  current : Bool := true
  /-- The reference held for the owner of a shadow version (Table 15-4, RETIRE). -/
  held : Bool := false
  deriving DecidableEq, Repr

/-- An embedding table (R234 to R236). -/
structure Table where
  comp : Nat
  last : Nat
  vers : List Ver
  shadow : Bool := false
  deriving DecidableEq, Repr

/-- A tile's hot-row area: table, version, rows still loading, and rows by index (R247). -/
structure Hot where
  table : Nat
  version : Nat
  rows : SMap (List Byte) := []
  failed : SMap Nat := []
  deriving DecidableEq, Repr

/-- What a read issued by a unit is for (R124). -/
inductive ReadFor where
  /-- The member table of a COLL_POST. -/
  | table (c : CmdRec)
  /-- A row of a tile's round, or a hot row. -/
  | row (desc share lo row : Nat)
  | hot (tile table version row : Nat)
  /-- A row of a GROWREQ served: serving record and place in it. -/
  | serve (id k : Nat)
  /-- A table record of a TABLE_PUBLISH, its header alone or whole, or a Route Card of a ROUTE_LOAD LOAD. -/
  | record (c : CmdRec) (whole : Bool)
  | card (c : CmdRec) (whole : Bool)
  /-- Of a Haul descriptor: a stored block, chunk 0 of its image, a chunk of a codebook load, a block of a PUT that is
  expanded again (keyed by its TAG), and a COPY write. -/
  | block (desc share k : Nat)
  | image (desc share : Nat)
  | book (load k : Nat)
  | redo (tag k : Nat) (again : Bool)
  | copy (desc bytes : Nat)
  /-- A block of a window fill: card, layer in pass order, step, share. -/
  | fill (card n step share k : Nat)
  deriving DecidableEq, Repr

/-- A GROWREQ being served (R250): rows read so far. -/
structure Serve where
  id : Nat
  unit : Nat
  wait : Waiting
  rows : List (Option (Nat × List Byte))
  deriving DecidableEq, Repr

/-- An ownership record received, with the NODE_ID of its sender (R221, Table 7-5). -/
structure OwnRec where
  comp : Nat
  coll : Nat
  epoch : Nat
  level : Nat
  commit : Nat
  abort : Bool
  idx : Nat
  ep : Nat
  unit : Nat
  gen : Nat
  prev : Nat
  node : Nat
  deriving DecidableEq, Repr

/-- An Anchor's watch on a node (R228). -/
structure Watch where
  id : Nat
  comp : Nat
  coll : Nat
  level : Nat
  idx : Nat
  epoch : Nat
  at_ : Nat
  deriving DecidableEq, Repr

/-- A batch or run of the Partner's for which no standby copy stands (R257): its record and descriptor. -/
structure Unplaced where
  own : OwnRec
  raw : List Byte
  deriving DecidableEq, Repr

/-- Engine state. -/
structure Eng where
  units : SMap EUnit := []
  descs : List Desc := []
  sent : List ESent := []
  ended : List Ended := []
  reads : SMap ReadFor := []
  serves : List Serve := []
  tables : SMap Table := []
  /-- Program images, keyed 4·tile + slot (R263), and hot-row areas of tiles. -/
  slots : SMap (List Byte) := []
  hot : SMap Hot := []
  recs : List OwnRec := []
  watches : List Watch := []
  /-- Composition and COLL_ID of the works whose Anchor this Talik is (R221, R257). -/
  anchored : List (Nat × Nat) := []
  unplaced : List Unplaced := []
  /-- ENG_FLT_LASTERR. -/
  lastErr : Nat := 0
  /-- INSEQ of the last INPUT record of each tile, sent as the Leader or taken as the Second (R438). -/
  insq : SMap Nat := []
  deriving DecidableEq, Repr

/-! ### Haul engines (chapter 10) -/

/-- A block expanded: its number, its elements [lo, hi), and the key generations behind it (R294). -/
structure HBlk where
  k : Nat
  lo : Nat
  hi : Nat
  gens : List Nat
  deriving DecidableEq, Repr

/-- An engine's share of a Haul descriptor: blocks [lo, hi) (R296). -/
structure HShare where
  engine : Nat
  lo : Nat
  hi : Nat
  /-- Next block to read, next block to expand. -/
  next : Nat
  cur : Nat
  /-- Stored blocks in the input buffer, and blocks read once more after a CRC failure. -/
  buf : SMap (List Byte) := []
  reread : List Nat := []
  /-- ELEM expected of the next block; blocks expanded. -/
  elem : Option Nat := none
  blks : List HBlk := []
  /-- Chunk 0 of the codebook image once it is in: bytes and key generation; it has been asked for; it has been read again. -/
  image : Option (List Byte × Nat) := none
  asked : Bool := false
  again : Bool := false
  /-- Codebooks named in CBL whose load has not started. -/
  preload : List Nat := []
  /-- Instant at which the expander stopped for a codebook (R308). -/
  stallAt : Option Nat := none
  /-- Smoothing queue: output bytes from a window offset on, and scale bytes (R299). -/
  outAt : Nat := 0
  out : List Byte := []
  scAt : Nat := 0
  sc : List Byte := []
  /-- Place of block `lo` in the card's window ring of the engine's Crest (R326); none when it is read from its source. -/
  win : Option Nat := none
  deriving DecidableEq, Repr

/-- An active Haul descriptor (R298). `raw`: its 128 bytes. -/
structure HDesc where
  id : Nat
  unit : Nat
  raw : List Byte
  shares : List HShare
  deadline : Nat := 0
  /-- A Route Card's step: card, layer in pass order, step. -/
  card : Option (Nat × Nat × Nat) := none
  /-- Its PUTs wait for the gate (R329). -/
  held : Bool := false
  /-- Status with which it ends, once decided before its blocks have run out; unit of the failure. -/
  status : Option Nat := none
  fail : Option Nat := none
  flags : Nat := 0
  /-- COUNT_DONE: elements answered, or bytes copied. -/
  done : Nat := 0
  dests : List Nat := []
  lost : List Nat := []
  doneSent : Bool := false
  posting : Bool := false
  /-- Output bytes sent and bytes read from the source copy (Table 11-8). -/
  outBytes : Nat := 0
  lower : Nat := 0
  deriving DecidableEq, Repr

/-- A PUT tracker entry (R301): a page of output or a done word, and the endpoints that have not answered it. -/
structure HPut where
  tag : Nat
  desc : Nat
  share : Nat
  engine : Nat
  addr : Nat
  data : List Byte
  blocks : List Nat := []
  gens : List Nat := []
  elems : Nat := 0
  need : List Nat
  tries : Nat := 0
  sentAt : Nat
  isDone : Bool := false
  /-- Blocks being expanded again for a resend. -/
  redo : List Nat := []
  deriving DecidableEq, Repr

/-- A codebook in an engine's cache (R308). -/
structure CBook where
  engine : Nat
  comp : Nat
  image : Nat
  index : Nat
  /-- Its entry (Table 10-4) and its bytes. -/
  ent : List Byte
  bytes : List Byte
  gens : List Nat
  used : Nat := 0
  deriving DecidableEq, Repr

/-- A codebook load (R308): chunks still to come and chunks that have. -/
structure HLoad where
  id : Nat
  engine : Nat
  desc : Nat
  share : Nat
  comp : Nat
  image : Nat
  index : Nat
  ent : List Byte
  need : List Nat
  got : SMap (List Byte)
  gens : List Nat
  again : List Nat := []
  deriving DecidableEq, Repr

/-- A Route Card's step that has ended (R332). -/
structure StepEnd where
  card : Nat
  n : Nat
  step : Nat
  status : Nat
  outBytes : Nat
  lower : Nat
  /-- It ended before its gate opened. -/
  held : Bool
  deriving DecidableEq, Repr

/-- Haul state. -/
structure Haul where
  descs : List HDesc := []
  puts : List HPut := []
  books : List CBook := []
  loads : List HLoad := []
  ends : List StepEnd := []
  /-- Order of use of codebooks. -/
  tick : Nat := 0
  deriving DecidableEq, Repr

/-! ### Route Cards (chapter 11) -/

/-- An armed step: layer in pass order, step; refused with RETRY_LATER and to be posted again; its descriptor. -/
structure CStep where
  n : Nat
  step : Nat
  retry : Bool := false
  /-- Its descriptor, once it has been posted. -/
  desc : Option Nat := none
  deriving DecidableEq, Repr

/-- A layer in the window of a rolling card: ring place on each Crest (R326). -/
structure Placed where
  n : Nat
  at_ : List Nat
  deriving DecidableEq, Repr

/-- A fill of a share under way: next block to write, and the fill's layer, step and share. -/
structure CFill where
  n : Nat
  step : Nat
  share : Nat
  next : Nat
  again : Bool := false
  deriving DecidableEq, Repr

/-- What a pass record is made of (Table 11-8). -/
structure PassAcc where
  status : Nat := 0
  failed : Nat := 0
  first : Nat := 0xFFFF
  direct : Nat := 0
  outBytes : Nat := 0
  lower : Nat := 0
  tStart : Nat := 0
  tEnd : Nat := 0
  deriving DecidableEq, Repr

/-- A Route Card (R321 to R334). States: 0 LOADED, 1 RUNNING, 2 STOPPING, 3 being loaded, 4 being unloaded. -/
structure Card where
  comp : Nat
  raw : List Byte
  st : Nat := 3
  /-- Pages of the copy. -/
  copy : List Nat := []
  /-- Shares of each step as laid out at LOAD. -/
  split : List (List ShareSt) := []
  resident : Bool := false
  lastStatus : Nat := 0
  passesDone : Nat := 0
  layerNow : Nat := 0
  depth : Nat := 0
  depthChanges : Nat := 0
  /-- Pass count of START (0: until stopped) and R0. -/
  passes : Nat := 0
  r0 : Nat := 0
  /-- Next layer to arm, in pass order. -/
  nextN : Nat := 0
  steps : List CStep := []
  /-- Layers armed and not ended, with the instant of arming. -/
  armed : SMap Nat := []
  /-- Gates opened by an evaluation: every layer below the number, from the instant on (R330). -/
  gates : List (Nat × Nat) := []
  /-- Shares in the window: layer (of the pass for a resident card, in pass order for a rolling one), step, share. -/
  filled : List (Nat × Nat × Nat) := []
  placed : List Placed := []
  /-- Bytes of each Crest's ring given out since the card began, and next layer to fill. -/
  top : List Nat := [0, 0, 0, 0]
  fillN : Nat := 0
  fills : List CFill := []
  /-- Shares still to be filled, in order. -/
  todo : List (Nat × Nat × Nat) := []
  /-- Layer whose fill is under way, its beginning, F and E (R328). -/
  fillNow : Option Nat := none
  fillAt : Nat := 0
  lastF : Option Nat := none
  lastE : Option Nat := none
  acc : SMap PassAcc := []
  /-- Status of the pass record that a stop writes (R325, R332). -/
  stopWith : Nat := 0x41
  deriving DecidableEq, Repr

-- MORE TYPES

/-- The whole block. -/
structure State where
  dev : Dev := {}
  clock : Clocks := {}
  /-- Configuration registers by word address; an unlisted one holds its reset value. -/
  regs : SMap Word := []
  /-- 64-bit counters by the address of their low word; an unlisted one is zero. -/
  ctrs : SMap Nat := []
  /-- R8: the high word latched by a path's read of a low word: path, address of the high word, value. -/
  latched : List (RegPath × Nat × Nat) := []
  /-- R8: the low word held by a path's write: path, address of the high word, value. -/
  heldLow : List (RegPath × Nat × Nat) := []
  lports : SMap LPort := []
  sw : Switch := {}
  rx : List RxPkt := []
  /-- PTP and LLDP frames passed to the Hut in TC7 (R46): logical port and bytes. -/
  toHut : List (Nat × List Byte) := []
  /-- HBM contents (pool pages): address = page × 2 MiB + offset; an unlisted byte reads zero. -/
  mem : List Host.Cell := []
  /-- Allocated pages by page number (R314). -/
  pages : SMap Page := []
  /-- Reads issued for units and cards, by identifier. -/
  reads : SMap URead := []
  /-- Poisoned 32-byte ECC words, by address / 32 (R505), in rising order. -/
  poison : List Nat := []
  xlt : Xlt := {}
  dir : Dir := {}
  cmd : Cmd := {}
  comps : SMap Comp := [(0, { st := 1 })]
  sec : Security := {}
  eng : Eng := {}
  haul : Haul := {}
  cards : SMap Card := []
  flt : Flt := {}
  out : List Out := []
  /-- Index of the next free value (log entry 6). -/
  freeCtr : Nat := 0
  pending : List Instr := []
  deriving DecidableEq, Repr

/-- Why the machine stops with a fault. No command of this block stops the machine: its faults are effects on State
(chapter 15), so no meaning raises this. Safe. -/
inductive Fault where
  /-- Raised by nothing: the spec names no behaviour at which the block ceases to have a next state. Safe. -/
  | none
  deriving DecidableEq, Repr

/-- Why a command is refused. -/
inductive Refusal where
  /-- Raised by an arm of Dispatch whose command has no meaning yet. Safe. -/
  | notModelled (mnemonic : String)
  deriving DecidableEq, Repr

/-- Right after reset: held in cold reset with every input pin at its undriven level (Table 18-7a), every register at the
value the spec states, memory with nothing listed. -/
def State.reset : State := {}

end Sys2Proof.Machine
end

