-- ==== Sys2Proof/Machine/Ops.lean ====
section
/-! DEFINITION. Shared operations over the state: clock, registers and counters by address, memory, ports, frames given to
the switch core, result rings and events, fault records, and the Partner mirror log. -/

namespace Sys2Proof.Machine

/-! ### Clock and free values -/

/-- Does the device timebase count? Not in BIVOUAC (R461), nor before internal reset ends (R80). -/
def tbRuns (s : State) : Bool := s.dev.devState != .bivouac && !s.dev.inReset && s.dev.pwrOk

/-- `d` ns pass: the block's clock and, with at most 200 ppm of slew (R81), the device timebase. -/
def elapse (d : Nat) (s : State) : State :=
  if tbRuns s then
    let acc := s.clock.slewAcc + d
    let k := min s.clock.slew.natAbs (acc / 5000)
    let up := s.clock.slew ≥ 0
    { s with clock := { s.clock with
        clk := s.clock.clk + d
        tb := if up then s.clock.tb + d + k else s.clock.tb + d - k
        slew := if up then s.clock.slew - k else s.clock.slew + k
        slewAcc := if s.clock.slew = 0 then 0 else acc % 5000 } }
  else { s with clock.clk := s.clock.clk + d }

/-- An event that is due at an instant has come: the clock stands there at the earliest (log entry 8). -/
def atLeast (t : Nat) (s : State) : State := if s.clock.clk < t then elapse (t - s.clock.clk) s else s

/-- A fresh free value (log entry 6). -/
def freeVal (s : State) : Nat := Config.freeValue s.freeCtr

/-- The next free value is another one. -/
def useFree (s : State) : State := { s with freeCtr := s.freeCtr + 1 }

/-! ### Registers and counters -/

/-- Offset of a register of physical port `p` (R82). -/
def portReg (p off : Nat) : Nat := 0x01000000 + p * 0x10000 + off

/-- Reset values of Table 3-3: PORT_CREDIT, INT_RESV and MAX of a class. -/
def carveDefault : Nat → Nat × Nat × Nat
  | 0 => (256, 1024, 8192)
  | 1 => (256, 4096, 32768)
  | 2 => (1024, 16384, 131072)
  | 3 => (1024, 32768, 131072)
  | 4 => (1024, 8192, 131072)
  | 5 => (1024, 16384, 131072)
  | 6 => (1024, 4096, 65536)
  | _ => (256, 512, 8192)

/-- SWX_CARVE_n at reset (Table 3-10). -/
def carveReset (n : Nat) : Nat :=
  let (c, r, m) := carveDefault n
  c * 2 ^ 44 + r * 2 ^ 26 + m * 2 ^ 7 + 64

/-- Reset value of the configuration word at an address; zero where the spec gives none (log entry 3). -/
def regReset (a : Nat) : Nat :=
  if 0x01000000 ≤ a ∧ a < 0x01600000 then
    match a % 0x10000 with
    | 0x00 => 0x200
    | 0x10 => 0x88B5418A
    | 0x14 => 0x000A8003
    | 0x18 => 0x850C0332
    | _ => 0
  else if 0x02000100 ≤ a ∧ a < 0x02000140 then
    let v := carveReset ((a - 0x02000100) / 8)
    if a % 8 = 0 then v % 2 ^ 32 else v / 2 ^ 32
  else if 0x03001000 ≤ a ∧ a < 0x03007000 then
    match a % 32 with
    | 4 => 0x03200050
    | 8 => 0x100
    | 0x10 => 0xFFFFFFFF
    | 0x14 => 0xFFFFFFFF
    | 0x18 => 0xFFFFFFFF
    | 0x1C => 0xFFFFFFFF
    | _ => 0
  else match a with
    | 0x00000014 => 10
    | 0x02000000 => 8
    | 0x02000004 => 0x0008F46B
    | 0x02000008 => 0x003C0080
    | 0x0200000C => 0x10048040
    | 0x03000000 => 0x0A00140A
    | 0x03000004 => 0x004B3200
    | 0x04000000 => 0x0A141040
    | 0x04000004 => 400
    | 0x05800000 => 0x03E80001
    | 0x05800010 => 3
    | 0x05800020 => 0x14000000
    | 0x06800000 => 0x14400007
    | 0x07000000 => 0x0A201402
    | 0x07000004 => 0x00080200
    | 0x08000000 => 0x00400001
    | 0x0800000C => 0xFFF
    | 0x09000010 => 0x00003C7D
    | 0x09000018 => 0x04000A44
    | 0x0A000000 => 0x0F0A0400
    | 0x0A000030 => 0x006403E8
    | 0x0B000000 => 0xFF010000
    | 0x0B000004 => 1
    | 0x0C000080 => 0x00555F00
    | _ => 0

/-- The configuration word at an address (R7). -/
def reg (s : State) (a : Nat) : Nat := (mgetD s.regs a (BitVec.ofNat 32 (regReset a))).toNat

/-- The 64-bit configuration register at an address. -/
def reg64 (s : State) (a : Nat) : Nat := reg s a + 2 ^ 32 * reg s (a + 4)

/-- Sets a configuration word; a word at its reset value is not listed. -/
def setReg (a v : Nat) (s : State) : State :=
  { s with regs := msetD s.regs a (BitVec.ofNat 32 (regReset a)) (BitVec.ofNat 32 v) }

/-- Value of a 64-bit counter. -/
def ctr (s : State) (a : Nat) : Nat := mgetD s.ctrs a 0

/-- Adds to a counter, saturating (R12). -/
def countN (a n : Nat) (s : State) : State :=
  { s with ctrs := msetD s.ctrs a 0 (satAdd (2 ^ 64 - 1) (ctr s a) n) }

/-- Adds one to a counter. -/
def count (a : Nat) (s : State) : State := countN a 1 s

/-- Sets a cause bit of CMD_ATTN_CAUSE (R364). -/
def attn (b : Nat) (s : State) : State := { s with cmd.cause := s.cmd.cause ||| 2 ^ b }

/-- Is ATTN_N driven low by an unmasked cause (R364)? -/
def attnLow (s : State) : Bool := s.cmd.cause &&& reg s 0x0800000C != 0

/-! ### Device conditions -/

/-- Held in cold reset, or internal reset has not ended. -/
def dead (s : State) : Bool := s.dev.inReset || !s.dev.pwrOk || s.dev.brown

/-- Recovery (R453). -/
def recovery (s : State) : Bool := s.dev.stage == 15

/-- The switching hardware runs: past stage CREST, not frozen, not stopped, not in a warm reset. -/
def running (s : State) : Bool :=
  !dead s && decide (6 ≤ s.dev.stage) && !recovery s && !s.dev.warm && s.dev.devState != .bivouac && !s.flt.stopped

/-- The control cores and the management port run (from stage FW on, R447, and in recovery). -/
def mgmtUp (s : State) : Bool := !dead s && decide (3 ≤ s.dev.stage) && !s.dev.coresDown

/-- Changes the device state and counts the change (R412). -/
def setDevState (d : DevState) (s : State) : State :=
  if s.dev.devState = d then s
  else attn 9 { s with dev.devState := d, dev.devChanges := satAdd 0xFFFF s.dev.devChanges 1 }

/-! ### Compositions -/

/-- The composition of an ID. -/
def comp (s : State) (k : Nat) : Comp := mgetD s.comps k {}

/-- A composition that exists and is not being removed (R367). -/
def compLive (s : State) (k : Nat) : Bool := (comp s k).st == 1 || (comp s k).st == 2

/-- Is the composition CONFIDENTIAL? -/
def conf (s : State) (k : Nat) : Bool := (comp s k).conf

/-! ### Memory -/

/-- Bytes per HBM page (R314). -/
def pageSize : Nat := 2097152

/-- One byte of HBM; a byte that nothing has written reads zero (R314, R449). -/
def memByte (m : List Host.Cell) (a : Nat) : Byte := mgetD m a 0

/-- Writes one byte, keeping the canonical form. -/
def memPut (m : List Host.Cell) (a : Nat) (b : Byte) : List Host.Cell := msetD m a 0 b

/-- `n` bytes from an address. -/
def memRead (m : List Host.Cell) (a : Nat) : Nat → List Byte
  | 0 => []
  | n + 1 => memByte m a :: memRead m (a + 1) n

/-- Writes bytes from an address. -/
def memWrite (m : List Host.Cell) (a : Nat) : List Byte → List Host.Cell
  | [] => m
  | b :: bs => memWrite (memPut m a b) (a + 1) bs

/-- Zeroes an address range (R314). -/
def memZero (m : List Host.Cell) (a n : Nat) : List Host.Cell := m.filter fun c => decide (c.1 < a) || decide (a + n ≤ c.1)

/-- Canonical form of a memory: addresses strictly rising, no entry equal to what an unlisted address reads as. -/
abbrev Memory.wf (m : List Host.Cell) : Prop := m.Pairwise (fun a b => a.1 < b.1) ∧ ∀ c ∈ m, c.2 ≠ 0

/-- Does a byte range meet a poisoned ECC word (R505)? -/
def poisoned (s : State) (a n : Nat) : Bool :=
  s.poison.any fun w => decide (w * 32 < a + n) && decide (a < w * 32 + 32)

/-- Poisons the ECC word of an address (R505). -/
def poisonAt (a : Nat) (s : State) : State :=
  let w := a / 32
  if w ∈ s.poison then s
  else { s with poison := s.poison.filter (decide <| · < w) ++ [w] ++ s.poison.filter (decide <| w < ·) }

/-- A write that covers whole ECC words clears their poison (R505); partly covered words stay poisoned. -/
def unpoison (a n : Nat) (s : State) : State :=
  { s with poison := s.poison.filter fun w => !(decide (a ≤ w * 32) && decide (w * 32 + 32 ≤ a + n)) }

/-- Writes bytes to HBM. -/
def hbmWrite (a : Nat) (bs : List Byte) (s : State) : State :=
  unpoison a bs.length { s with mem := memWrite s.mem a bs }

/-! ### Ports -/

/-- PORT_CFG of the physical port of a logical port. -/
def portCfg (s : State) (lp : Nat) : Nat := reg s (portReg (lp / 8) 0)

/-- PORT_CFG.MODE: 0 OFF, 1 ACCEL, 2 TRAY, 3 TRUNK, 4 CMD. -/
def modeOf (s : State) (lp : Nat) : Nat := bits (portCfg s lp) 2 0

/-- Lanes per logical port under the current breakout (Table 2-3). -/
def width (s : State) (lp : Nat) : Nat := 8 / 2 ^ bits (portCfg s lp) 5 4

/-- Is it the first lane of a logical port under the current breakout (Table 2-3)? -/
def isLport (s : State) (lp : Nat) : Bool := decide (lp < 768) && lp % 8 % width s lp == 0

/-- PORT_LCFG of a logical port. -/
def lcfg (s : State) (lp : Nat) : Nat := reg s (portReg (lp / 8) (0x20 + 4 * (lp % 8)))

/-- PROFILE is KMT. -/
def isKmt (s : State) (lp : Nat) : Bool := bit (lcfg s lp) 0

/-- MACSEC_REQ is 1. -/
def macsecReq (s : State) (lp : Nat) : Bool := bit (lcfg s lp) 3

/-- State of a logical port. -/
def lport (s : State) (lp : Nat) : LPort := mgetD s.lports lp {}

/-- Sets the state of a logical port. -/
def setLport (lp : Nat) (f : LPort → LPort) (s : State) : State :=
  { s with lports := msetD s.lports lp {} (f (lport s lp)) }

/-- ACTIVE or DEGRADED. -/
def live (s : State) (lp : Nat) : Bool := (lport s lp).st == 4 || (lport s lp).st == 5

/-- The Crest of a logical port (R14). -/
def crestOf (lp : Nat) : Nat := lp / 8 / 24

/-- All lanes of a logical port, as bits of the physical port. -/
def allLanes (s : State) (lp : Nat) : Nat := (2 ^ width s lp - 1) * 2 ^ (lp % 8)

/-- The lanes in use: under 802.3ck in BASE_CAMP a 1×1.6T port uses lanes 0 to 3 only (Table 2-2). -/
def startLanes (s : State) (lp : Nat) : Nat :=
  if s.dev.devState = .baseCamp ∧ width s lp = 8 then 0x0F else allLanes s lp

/-- Scheduler output of a physical port, Engine tile, Haul engine, memory unit and control (Table 1-2, R89). -/
def outPort (p : Nat) : Nat := 65 * (p / 24) + p % 24
def outTile (e : Nat) : Nat := 65 * (e / 16) + 24 + e % 16
def outHaul (h : Nat) : Nat := 65 * (h / 8) + 40 + h % 8
def outCtl : Nat := 64
/-- Scheduler inputs. -/
def inPort (p : Nat) : Nat := 73 * (p / 24) + p % 24
def inTile (e : Nat) : Nat := 73 * (e / 16) + 24 + e % 16
def inHaul (h : Nat) : Nat := 73 * (h / 8) + 40 + 2 * (h % 8)
def inMem (crest : Nat) : Nat := 73 * crest + 56
def inCtl : Nat := 72

/-! ### KMT packets -/

/-- Packet header flags byte of Table 4-1. -/
def kmtFlags (p : Kmt) : Nat := p.load * 16 + b2n p.rsp * 8 + b2n p.rtx * 4 + b2n p.cmb * 2

/-- The bytes of a transport packet (R109, R111). -/
def kmtBytes (p : Kmt) : List Byte :=
  le 1 p.opcode ++ le 1 p.status ++ le 1 (kmtFlags p) ++ le 1 p.comp ++ le 2 p.len ++ le 2 p.job ++ le 4 p.src ++
  le 4 p.dst ++ le 4 p.tag ++ le 2 p.space ++ le 1 (p.chan + 64 * b2n p.allch) ++ le 1 0 ++ le 8 p.addr ++
  padMul 8 p.payload

/-- The packet that a header spells, without payload; reserved bits are ignored (R5). -/
def kmtOf (h : List Byte) : Kmt :=
  let f := byteAt h 2
  { opcode := byteAt h 0, status := byteAt h 1, load := f / 16, rsp := bit f 3, rtx := bit f 2, cmb := bit f 1
    comp := byteAt h 3 % 64, len := fld h 4 2 % 8192, job := fld h 6 2, src := fld h 8 4 % 2 ^ 18
    dst := fld h 12 4 % 2 ^ 18, tag := fld h 16 4 % 2 ^ 24, space := fld h 20 2 % 1024
    chan := byteAt h 22 % 64, allch := bit (byteAt h 22) 6, addr := fld h 24 8 % 2 ^ 46 }

/-- XLT_SELF. -/
def selfEp (s : State) : Nat := reg s 0x03000008 % 2 ^ 18

/-- The response to a request (R110). -/
def response (p : Kmt) (src : Nat) (status load : Nat) (payload : List Byte := []) (cmb : Bool := false) : Kmt :=
  { p with status, load, rsp := true, rtx := false, cmb, src, dst := p.src, len := payload.length, payload }

/-! ### Frames for the switch core -/

/-- 256-byte cells of a packet or frame. -/
def cellsOf : Cargo → Nat
  | .kmt p => ceilDiv (kmtBytes p).length 256
  | .plain f => ceilDiv f.len 256
  | .reply f => ceilDiv (f.bytes.length + 46) 256

/-- Fields of SWX_CARVE_n. -/
def carve (s : State) (tc : Nat) : Nat := reg64 s (0x02000100 + 8 * tc)
def carveCredit (s : State) (tc : Nat) : Nat := bits (carve s tc) 55 44
def carveResv (s : State) (tc : Nat) : Nat := bits (carve s tc) 43 26
def carveMax (s : State) (tc : Nat) : Nat := bits (carve s tc) 25 7
def carveXoff (s : State) (tc : Nat) : Nat := bits (carve s tc) 6 0 * 16

/-- Cells of a class's internal reserve in use on a Crest. -/
def resvUsed (s : State) (crest tc : Nat) : Nat :=
  sum ((s.sw.voq.filter fun f => f.crest == crest && f.tc == tc).map (·.resv))

/-- Cells of the shared pool in use on a Crest. -/
def poolUsed (s : State) (crest : Nat) : Nat := sum ((s.sw.voq.filter (·.crest == crest)).map (·.pool))

/-- Cells of the shared pool (Table 3-3). -/
def poolSize (s : State) : Nat :=
  393216 - sum ((List.range 8).map fun n => 24 * carveCredit s n + carveResv s n)

/-- Cells that a class holds on a Crest. -/
def classUsed (s : State) (crest tc : Nat) : Nat :=
  sum ((s.sw.voq.filter fun f => f.crest == crest && f.tc == tc && f.inBuf).map (·.cells))

/-- How a frame of `n` cells is held: cells of the reserve, then of the pool, or none (R96). -/
def carveTake (s : State) (crest tc n : Nat) : Option (Nat × Nat) :=
  let r := min n (carveResv s tc - resvUsed s crest tc)
  let q := n - r
  if q = 0 then some (r, 0)
  else if poolUsed s crest + q ≤ poolSize s ∧ classUsed s crest tc + n ≤ carveMax s tc then some (r, q)
  else none

/-- A frame joins its queue (R88). Frames of an internal input take cells under R96 or stall. -/
def enqueue (f : VFrame) (s : State) : State :=
  let f := { f with id := s.sw.nextId }
  let f := if f.ilp = 0x3FF then
      match carveTake s f.crest f.tc f.cells with
      | some (r, q) => { f with resv := r, pool := q }
      | none => { f with inBuf := false }
    else f
  { s with sw.voq := s.sw.voq ++ [f], sw.nextId := s.sw.nextId + 1 }

/-- Gives a packet from an internal input to the switch core, for one logical port. -/
def sendFrom (inp lp tc : Nat) (p : Kmt) (gate : Gate) (s : State) : State :=
  enqueue { id := 0, inp, tc, legs := [{ out := outPort (lp / 8), lp }], cells := cellsOf (.kmt p), cargo := .kmt p,
            comp := p.comp, gate, crest := inp / 73 } s

/-- Trunk group entry: 16 bits. -/
def trunkEntry (s : State) (g i : Nat) : Nat :=
  let w := reg s (0x02001000 + 32 * g + 4 * (i / 2))
  if i % 2 = 0 then w % 65536 else w / 65536

/-- Valid members of a trunk group in list order. -/
def trunkMembers (s : State) (g : Nat) : List Nat :=
  ((List.range 16).map (trunkEntry s g)).filterMap fun e => if bit e 15 then some (bits e 9 0) else none

/-- Live members: TRUNK mode, ACTIVE or DEGRADED, and the profile of the lowest-listed valid member (R104, R399, R401). -/
def trunkLive (s : State) (g : Nat) : List Nat :=
  let ms := (trunkMembers s g).filter fun l => isLport s l && modeOf s l == 3
  match ms with
  | [] => []
  | m :: _ => ms.filter fun l => live s l && isKmt s l == isKmt s m

/-- Is the trunk group's profile KMT (R399)? -/
def trunkKmt (s : State) (g : Nat) : Bool :=
  match (trunkMembers s g).filter fun l => isLport s l && modeOf s l == 3 with
  | [] => false
  | m :: _ => isKmt s m

/-- Egress backlog of a class at a logical port, in cells (R105). -/
def backlog (s : State) (lp tc : Nat) : Nat :=
  sum ((s.sw.voq.filter (·.tc == tc)).map fun f => sum ((f.legs.filter (·.lp == lp)).map fun l => f.cells - l.moved)) +
  sum ((s.sw.egress.filter fun f => f.tc == tc && f.lp == lp).map fun f => cellsOf f.cargo)

/-- Number of set bits among the low eight. -/
def popcount8 (m : Nat) : Nat := sum ((List.range 8).map fun i => b2n (bit m i))

/-- Depth of a member for adaptive routing (R105). -/
def arDepth (s : State) (tc lp : Nat) : Nat := backlog s lp tc * 8 / max 1 (popcount8 (lport s lp).lanes)

/-- The trunk port of a frame: hash choice (R104), or the adaptive choice (R105), and whether it moved. -/
def trunkChoice (s : State) (g tc : Nat) (key : List Byte) (adaptive : Bool) : Option (Nat × Bool) :=
  let ls := trunkLive s g
  if ls = [] then none else
  let h := ls.getD (crc32c key % ls.length) 0
  let cfg := reg s 0x02000008
  if adaptive && bit (bits cfg 23 16) tc && !bit cfg 0 then
    let best := ls.foldl (fun b l => if arDepth s tc l < arDepth s tc b then l else b) (ls.headD 0)
    if arDepth s tc best + bits cfg 15 1 < arDepth s tc h then some (best, best != h) else some (h, false)
  else some (h, false)

/-- Key of the hash choice for a KMT packet (R104). -/
def trunkKey (p : Kmt) (tc : Nat) : List Byte := le 3 p.src ++ le 3 p.dst ++ le 1 tc ++ [0]

/-- Where a destination endpoint leads (R125). -/
inductive Route where
  | drop
  | port (lp : Nat)
  | trunk (g : Nat)
  deriving DecidableEq, Repr

/-- XLT_ROUTE and XLT_LOCAL of a destination (R125). -/
def routeOf (s : State) (dst : Nat) : Route :=
  let e := reg s (0x03007000 + 4 * (dst / 1024 % 256))
  match bits e 7 6 with
  | 1 =>
    let l := reg s (0x03008000 + 4 * (dst % 1024))
    if bit l 31 then .port (bits l 9 0) else .drop
  | 2 => .trunk (bits e 5 0)
  | _ => .drop

/-- XLT_EP words of a logical port. -/
def epWord (s : State) (lp off : Nat) : Nat := reg s (0x03001000 + 32 * lp + off)
def epValid (s : State) (lp : Nat) : Bool := bit (epWord s lp 0) 31
def epComp (s : State) (lp : Nat) : Nat := bits (epWord s lp 0) 29 24
def epId (s : State) (lp : Nat) : Nat := bits (epWord s lp 0) 17 0
def epJobs (s : State) (lp : Nat) : List Nat :=
  (List.range 8).map fun k =>
    let w := epWord s lp (0x10 + 4 * (k / 2))
    if k % 2 = 0 then w % 65536 else w / 65536

/-! ### Result rings and events -/

/-- A result ring of a composition. -/
def findRing (s : State) (k n : Nat) : Option Ring := s.cmd.rings.find? fun r => r.comp == k && r.num == n

/-- Replaces a ring. -/
def setRing (r : Ring) (s : State) : State :=
  { s with cmd.rings := modIf (fun q => q.comp == r.comp && q.num == r.num) (fun _ => r) s.cmd.rings }

/-- The idle item (R358). -/
def idleLsw : Nat := 0x1D1E000000000000

/-- Bytes of entry k (Table 12-9), padded to the entry size. -/
def entryBytes (r : Ring) (k : Nat) (e : Entry) : List Byte :=
  padTo (2 ^ r.esize) (le 4 (k % 2 ^ 32) ++ le 2 e.payload.length ++ le 2 e.type ++ le 1 e.status ++ zeros 7 ++ e.payload)

/-- Writes an entry into the next slot of a ring (R359). -/
def ringWrite (r : Ring) (e : Entry) (s : State) : State :=
  let s := (List.range 12).foldl (fun s b => if bit e.attn b then attn b s else s) s
  setRing { r with pi := r.pi + 1, entries := mset r.entries r.pi e } s

/-- Has the ring space for another entry (R361)? -/
def ringSpace (r : Ring) : Bool := decide (r.pi < r.ci + 2 ^ r.nent)

/-- Payload of an event (Table 12-9b). -/
def eventBytes (s : State) (r : Ring) (cause object counter : Nat) : List Byte :=
  le 1 cause ++ [0] ++ le 2 object ++ le 4 r.lostNow ++ le 8 s.clock.tb ++ le 4 counter ++ zeros 28

/-- An event concerning an object of a composition (R362, Table 12-9b). -/
def event (k cause object counter : Nat) (s : State) : State :=
  match findRing s k 0 with
  | none => count 0x08000430 s
  | some r =>
    if ringSpace r ∧ r.waiting = [] then
      ringWrite { r with lostNow := 0 } { type := 6, status := 0, payload := eventBytes s r cause object counter } s
    else count 0x08000430 (setRing { r with lost := r.lost + 1, lostNow := r.lostNow + 1 } s)

/-! ### Fault records -/

/-- Cause bits that a fault class raises (Table 15-1), for classes with a fixed one. -/
def faultAttn : Nat → Option Nat
  | 1 => some 0
  | 2 => some 0
  | 3 => some 0
  | 7 => some 3
  | 10 => some 9
  | 11 => some 9
  | 13 => some 9
  | 14 => some 9
  | 15 => some 10
  | _ => none

/-- Writes a fault record (R415, R418), counts it, sets its cause bit and writes its event. `b`: the cause bit of a class
whose bit depends on the unit, or the bit that the event names when the class raises none. -/
def fault (cls cause : Nat) (k : Option Nat) (object counter detail b : Nat) (s : State) : State :=
  let r : FaultRec := { cls, cause, comp := k, object, tEvt := s.clock.tb, counter, detail }
  let s := { s with flt.log := mset s.flt.log (s.flt.logWr % 4096) r, flt.logWr := s.flt.logWr + 1, flt.lastClass := cls }
  let s := count 0x0A000400 s
  let s := match faultAttn cls with
    | some a => attn a s
    | none => if cls = 4 then attn b s else s
  match k with
  | some k => event k b object counter s
  | none => s

/-- A deadline miss of a unit: counted, ATTN_N as configured, and a fault record (R202, R306). `key`: of EUnit. -/
def dlMiss (key ctr : Nat) (k : Nat) (s : State) : State :=
  let s := count ctr s
  if key < 128 then fault 6 1 (some k) key ctr 0 4 (if bit (reg s 0x05800000) 0 then attn 4 s else s)
  else fault 6 2 (some k) (key - 128) ctr 0 5 (if bit (reg s 0x06800000) 0 then attn 5 s else s)

/-- A descriptor ends with its completion (R189): it is active no longer, and a status other than OK is remembered (Table 6-8). -/
def dropDesc (id status : Nat) (s : State) : State :=
  let end_ := (s.eng.descs.filter (·.id == id)).map fun d =>
    ({ unit := d.unit, comp := fld d.raw 3 1, descId := fld d.raw 8 4, status, at_ := s.clock.clk } : Ended)
  { s with
    eng.descs := s.eng.descs.filter (·.id != id)
    eng.sent := s.eng.sent.filter fun p => p.desc != id || id == 0
    haul.descs := s.haul.descs.filter (·.id != id)
    haul.puts := s.haul.puts.filter (·.desc != id)
    haul.loads := s.haul.loads.filter (·.desc != id)
    eng.ended := if status = 0 then s.eng.ended else s.eng.ended ++ end_ }

/-- Writes a completion or record into a ring that has space: time of writing, deadline rule (R201, R306, R361), counters, and
the end of its descriptor. -/
def ringFill (r : Ring) (e : Entry) (s : State) : State :=
  let late := e.deadline != 0 && decide (e.deadline < s.clock.tb) && e.status == 0
  let pl := if late then le 1 0x40 ++ slice e.payload 1 1 ++ le 1 (0x80 + e.unit % 128) ++ e.payload.drop 3 else e.payload
  let pl := if e.tAt = 0 then pl else pl.take e.tAt ++ le 8 s.clock.tb ++ pl.drop (e.tAt + 8)
  let e' := { e with status := if late then 0x40 else e.status, payload := pl }
  let s := ringWrite r e' s
  let s := if late then dlMiss e.unit e.dlCounter r.comp s else s
  let s := if e.doneCtr = 0 then s else count e.doneCtr s
  if e.desc = 0 then s else dropDesc e.desc e'.status s

/-- Writes a result entry, waits for space, or loses it when its ring is gone (R347, R361). -/
def ringPut (k n : Nat) (e : Entry) (s : State) : State :=
  match findRing s k n with
  | none =>
    let s := attn 7 (count 0x08000438 s)
    if e.desc = 0 then s else dropDesc e.desc e.status s
  | some r =>
    if ringSpace r ∧ r.waiting = [] then ringFill r e s else setRing { r with waiting := r.waiting ++ [e] } s

/-! ### Partner mirror log -/

/-- FLT_PARTNER. -/
def partnerNode (s : State) : Nat := reg64 s 0x0A000008

/-- Live KMT TRUNK ports (R427). -/
def trunkPorts (s : State) : List Nat :=
  (s.lports.map (·.1)).filter fun l => isLport s l && modeOf s l == 3 && isKmt s l && live s l

/-- Live Partner ports (R419). -/
def partnerPorts (s : State) : List Nat :=
  if partnerNode s = 0 then [] else (trunkPorts s).filter fun l => (lport s l).peerNode == partnerNode s

/-- Is a composition marked for mirroring (R420)? -/
def mirrorBit (s : State) (k : Nat) : Bool := bit (reg s 0x0A000000) 0 && bit (reg64 s 0x0A000010) k

/-- Partner ports on which a composition's records leave: with MACSEC_REQ only for a CONFIDENTIAL one (Table 13-9). -/
def logPorts (s : State) (k : Nat) : List Nat := (partnerPorts s).filter fun l => !conf s k || macsecReq s l

/-- A CONFIDENTIAL composition is mirrored only while a Partner port with MACSEC_REQ is live (R420). -/
def mirrorOk (s : State) (k : Nat) : Bool := !conf s k || logPorts s k != []

/-- Is the mirroring acknowledged: PAIRED, or a Leader that has switched to it (R425, R440)? -/
def acking (s : State) : Bool := s.flt.paired || s.flt.second.leading == 3

/-- Effects of the composition wait for the Partner (R425). -/
def mirrored (s : State) (k : Nat) : Bool := acking s && mirrorBit s k && mirrorOk s k

/-- Records of the composition are sent: while PAIRED, or to a Second (R437). -/
def logging (s : State) (k : Nat) : Bool := mirrorBit s k && mirrorOk s k && (s.flt.paired || decide (0 < s.flt.second.leading))

/-- Lane state. -/
def lane (s : State) (c : Nat) : Lane := s.flt.lanes.getD c {}

/-- Sets a lane. -/
def setLane (c : Nat) (f : Lane → Lane) (s : State) : State :=
  { s with flt.lanes := s.flt.lanes.set c (f (lane s c)) }

/-- Has the Partner answered the record of a gate (R425)? -/
def gateOpen (s : State) : Gate → Bool
  | none => true
  | some (c, n) => decide (n ≤ (lane s c).acked)

/-- Bytes of a log record (R423). -/
def recBytes (r : LogRec) : List Byte :=
  let b := padMul 8 r.body
  le 1 r.rtype ++ le 1 r.comp ++ le 2 b.length ++ zeros 4 ++ b

/-- Bytes of an MLOG payload (R423). -/
def mlogBytes (c first : Nat) (rs : List LogRec) : List Byte :=
  le 1 c ++ [0] ++ le 2 rs.length ++ zeros 4 ++ le 8 first ++ (rs.map recBytes).flatten

/-- The MLOG packet (R423). -/
def mlogPkt (s : State) (m : MlogPkt) (rtx : Bool) : Kmt :=
  let pl := mlogBytes m.lane m.first m.recs
  { opcode := 0x80, rtx, len := pl.length, src := selfEp s, dst := s.flt.partnerEp, tag := m.id % 2 ^ 24, payload := pl }

/-- Sends an MLOG on a Partner port, if one is live. -/
def sendMlog (m : MlogPkt) (rtx : Bool) (s : State) : State :=
  if m.lp ∈ partnerPorts s then sendFrom inCtl m.lp 6 (mlogPkt s m rtx) none s else s

/-- Puts a record on a lane: numbers it, sends it in an MLOG of its own, and names the gate of its effects (R424, R425). -/
def pushRec (c : Nat) (r : LogRec) (s : State) : State × Gate :=
  let n := (lane s c).nextLsn
  let m : MlogPkt := { id := s.xlt.nextId, lane := c, first := n, recs := [r], sentAt := s.clock.clk,
                       lp := (logPorts s r.comp).headD 0x3FF }
  let s := setLane c (fun l => { l with nextLsn := n + 1 }) (count 0x0A000408 s)
  let s := { s with xlt.nextId := s.xlt.nextId + 1, flt.sent := if acking s then s.flt.sent ++ [m] else s.flt.sent }
  (sendMlog m false s, if acking s then some (c, n) else none)

/-- Logs one record of a composition, where records of it are sent. -/
def logRec (c : Nat) (r : LogRec) (s : State) : State × Gate := if logging s r.comp then pushRec c r s else (s, none)

/-- Holds an effect until its gate opens. -/
def hold (g : Nat × Nat) (h : Held) (s : State) : State := { s with flt.held := s.flt.held ++ [(g.1, g.2, h)] }

/-! ### Digests of Seconding (R438, R439) -/

/-- Is this Talik the Second of a Seconding? -/
def seconding (s : State) : Bool := s.dev.devState == .seconding

/-- Are a composition's outputs digested: by the Leader while it marks windows, and by its Second? -/
def digesting (s : State) (k : Nat) : Bool :=
  mirrorBit s k && (s.flt.second.leading == 2 || (seconding s && decide (1 ≤ s.flt.second.phase)))

/-- Adds an output's d to a lane's digest (R438): its digest bytes, and the LSN or INSEQ of the input that caused it. -/
def digestOut (c seq k : Nat) (bytes : List Byte) (s : State) : State :=
  if digesting s k then
    let d := crc32c bytes + 2 ^ 32 * crc32c (bytes ++ le 8 seq)
    setLane c (fun l => { l with digest := (l.digest + d) % 2 ^ 64 }) s
  else s

/-- Digest bytes of a packet (R438). -/
def digestBytes (op k len job dst space chan addr : Nat) (payload : List Byte) : List Byte :=
  le 1 op ++ le 1 k ++ le 2 len ++ le 2 job ++ le 4 dst ++ le 2 space ++ le 1 chan ++ le 8 addr ++ payload

/-- Digest of a unit's packet; the tile is that of the scheduler input that it leaves by. -/
def digestPkt (inp : Nat) (p : Kmt) (s : State) : State :=
  let tile := inp / 73 * 16 + (inp % 73 - 24)
  digestOut (inp / 73 % 4) (mgetD s.eng.insq tile 0) p.comp
    (digestBytes p.opcode p.comp p.len p.job p.dst p.space p.chan p.addr (p.payload.take p.len)) s

/-- Writes a result entry of a composition, after the Partner's answer if a gate is given. -/
def ringPutG (g : Gate) (k n : Nat) (e : Entry) (s : State) : State :=
  match g with
  | none => ringPut k n e s
  | some g => if gateOpen s (some g) then ringPut k n e s else hold g (.ring k n e) s

/-- Appends to what the block has sent. -/
def emit (o : Out) (s : State) : State := { s with out := s.out ++ [o] }

end Sys2Proof.Machine
end

