-- ==== Sys2Proof/Machine/Queues.lean ====
section
/-! DEFINITION. Replies and completions of commands: what every command path shares (R340, R344, R346, R347). -/

namespace Sys2Proof.Machine

/-- How a started command came out: a status with reply parameters and load hint, or PENDING. -/
inductive CmdRes where
  | done (status : Nat) (params : List Byte := []) (load : Nat := 0)
  | pending (what : LongFor) (params : List Byte := [])
  /-- A short command that waits for the Partner (R422). -/
  | held
  deriving DecidableEq, Repr

/-- Signed 32-bit difference of command sequence numbers. -/
def cseqDiff (a b : Nat) : Int := sgn 32 ((a + 2 ^ 32 - b % 2 ^ 32) % 2 ^ 32)

/-- A composition's queue. -/
def queue (s : State) (k q : Nat) : Queue := mgetD s.cmd.queues (4 * k + q) {}

/-- Sets a queue. -/
def setQueue (k q : Nat) (f : Queue → Queue) (s : State) : State :=
  { s with cmd.queues := msetD s.cmd.queues (4 * k + q) {} (f (queue s k q)) }

/-- OLDEST: the lowest CSEQ that has not completed, or NEXT. -/
def oldest (q : Queue) : Nat :=
  let started := q.running ++ (q.busy.map (·.cseq)).toList
  started.foldl (fun o c => if cseqDiff c o < 0 then c else o) q.next

/-- Command packets in intake: admitted and not started. -/
def intake (s : State) : Nat := sum (s.cmd.queues.map fun q => q.2.waiting.length)

/-- CMD_CFG.INTAKE_HI. -/
def intakeHi (s : State) : Nat := bits (reg s 0x08000000) 23 12

/-- HOST_RDY is pressed by intake: low from INTAKE_HI packets until intake falls below INTAKE_HI / 2 (Table 12-10). -/
def press (s : State) : State :=
  let n := intake s
  { s with cmd.pressed := if s.cmd.pressed then decide (intakeHi s / 2 ≤ n) else decide (intakeHi s ≤ n) }

/-- Is HOST_RDY released (Table 12-10, Table 16-5)? Unpowered and in PORST_N it is released too, but no command is received. -/
def hostRdy (s : State) : Bool := running s && !s.dev.coresDown && !s.cmd.pressed

/-- Reply bytes from the command link header on: header of Table 12-2, parameters, CRC (R338, R344). -/
def replyBytes (s : State) (c : CmdRec) (status load : Nat) (params : List Byte) : List Byte :=
  let ps := if status = 0 ∨ status = 1 ∨ status = 0x31 then padMul 8 params else []
  let fl := 1 + (bits c.flags 3 2) * 4 + load * 16
  let pkt := le 1 c.opcode ++ le 1 status ++ le 1 fl ++ le 1 c.comp ++ le 1 c.queue ++ [0] ++ le 2 ps.length ++
    le 4 c.cseq ++ le 2 c.ring ++ le 2 c.job ++ le 8 c.ctx ++ le 8 s.clock.tb ++ ps
  let h := le 4 (pkt.length * 2 ^ 16 + 0x1008) ++ zeros 8
  h ++ le 4 (crc32c h) ++ pkt ++ le 4 (crc32c pkt)

/-- Sends reply bytes on the logical port that received the command, in TC0, addressed back to its source (R340). -/
def sendReplyBytes (c : CmdRec) (bytes : List Byte) (s : State) : State :=
  let f := c.frame
  let out : CmdFrame := { f with
    srcMac := reg64 s 0x08000010 % 2 ^ 48, dstMac := f.srcMac, srcIp := f.dstIp, dstIp := f.srcIp
    srcPort := f.srcPort, ipOdd := false, udpSumOk := true, fcsOk := true, bytes }
  enqueue { id := 0, inp := inCtl, tc := 0, legs := [{ out := outPort (c.lp / 8), lp := c.lp }]
            cells := cellsOf (.reply out), cargo := .reply out, comp := c.comp, crest := 0 } s

/-- Sends a reply. -/
def sendReply (c : CmdRec) (status load : Nat) (params : List Byte) (s : State) : State :=
  sendReplyBytes c (replyBytes s c status load params) s

/-- Saves a reply in the queue's duplicate window [NEXT − D, NEXT). -/
def saveReply (c : CmdRec) (status load : Nat) (params : List Byte) (s : State) : State :=
  setQueue c.comp c.queue (fun q =>
    { q with saved := (q.saved.filter fun v => v.cseq != c.cseq && decide (cseqDiff q.next v.cseq ≤ q.depth)) ++
        [{ cseq := c.cseq, opcode := c.opcode, status, load, params }] }) s

/-- A long command ends: its completion goes to its ring, and its saved reply takes the final status (R346, R347). -/
def finishLong (l : LongCmd) (status : Nat) (result : List Byte) (s : State) : State :=
  let c := l.cmd
  let s := { s with cmd.longs := s.cmd.longs.filter (· != l) }
  let s := setQueue c.comp c.queue (fun q => { q with
    running := q.running.filter (· != c.cseq)
    saved := q.saved.map fun v => if v.cseq = c.cseq then
      { v with status, load := 0, params := if status = 0 then result else [] } else v }) s
  ringPut c.comp c.ring
    { type := 1, status, tAt := 16, attn := if bit c.flags 3 then 2 ^ 7 else 0
      payload := le 4 c.cseq ++ le 1 c.queue ++ le 1 c.opcode ++ zeros 2 ++ le 8 c.ctx ++ le 8 s.clock.tb ++ padTo 24 result } s

/-- Every long command that waits for this ends. -/
def finishAll (what : LongFor) (status : Nat) (result : List Byte) (s : State) : State :=
  each (s.cmd.longs.filter (·.what == what)) (fun l => finishLong l status result) s

end Sys2Proof.Machine
end

