-- ==== Sys2Proof/Machine/Transport.lean ====
section
/-! DEFINITION. The memory transport's shared operations (chapter 4): spaces and extents, pages, tray requests and their
tracker, operations at the memory units, responses, rate limits, the reply cache, combining windows and revocation. -/

namespace Sys2Proof.Machine

/-! ### Spaces, extents and pages -/

/-- The extent that covers an offset of a space: index and extent (R119). -/
def extAt (s : State) (space a : Nat) : Option (Nat × Extent) :=
  s.xlt.extents.find? fun e => e.2.space == space && decide (e.2.offset ≤ a) && decide (a < e.2.offset + e.2.size)

/-- The result ring whose range covers an offset of a space (R356). -/
def ringAt (s : State) (space a : Nat) : Option Ring :=
  s.cmd.rings.find? fun r => r.space == space && decide (r.offset ≤ a) && decide (a < r.offset + r.npages * pageSize)

/-- One byte of a ring's range (R356, R360): the control page, a filled slot that CI has not passed, or the idle item. -/
def ringByte (r : Ring) (off : Nat) : Byte :=
  if off < 4096 then (le 8 r.pi ++ le 8 r.ci ++ le 8 r.lost).getD off 0
  else
    let slot := (off - 4096) / 2 ^ r.esize
    let i := (off - 4096) % 2 ^ r.esize
    if 2 ^ r.nent ≤ slot then 0 else
    let k := r.ci + (slot + 2 ^ r.nent - r.ci % 2 ^ r.nent) % 2 ^ r.nent
    match (if k < r.pi then mget r.entries k else none) with
    | some e => (entryBytes r k e).getD i 0
    | none => (le 8 idleLsw).getD i 0

/-- Bytes of a ring's range. -/
def ringBytes (r : Ring) (off n : Nat) : List Byte := (List.range n).map fun i => ringByte r (off + i)

/-- HBM address of the capture ring's byte at an offset of its space, if it covers it. -/
def captureAt (s : State) (space a : Nat) : Option Nat :=
  match s.sw.capture with
  | some c => if c.space = space ∧ c.offset ≤ a ∧ a < c.offset + c.size then
      some (c.pages.getD ((a - c.offset) / pageSize) 0 * pageSize + (a - c.offset) % pageSize) else none
  | none => none

/-- HBM or tray-local address of an offset in an extent (R128). -/
def extAddr (e : Extent) (a : Nat) : Nat := (if e.hbm then e.base * pageSize else e.base) + (a - e.offset)

/-- The Crest of an HBM address: page p lies on Crest p mod 4 (R314). -/
def pageCrest (a : Nat) : Nat := a / pageSize % 4

/-- Is the run of `n` pages from `a` free? -/
def runFree (s : State) (a n : Nat) : Bool := s.pages.all fun p => decide (p.1 < a) || decide (a + n ≤ p.1)

/-- A first page number for a run of `n`, the Talik's free choice (R119, R314), on a named Crest if one is given. -/
def chooseRun (s : State) (n : Nat) (crest : Option Nat) : Option Nat :=
  let start := freeVal s % 2 ^ 25
  let cands := (start :: s.pages.map (·.1 + 1)).filter (start ≤ ·) ++ (0 :: s.pages.map (·.1 + 1)).filter (· < start)
  let cands := match crest with
    | none => cands
    | some c => cands.map fun a => a + (c + 4 - a % 4) % 4
  cands.find? fun a => runFree s a n && decide (a + n ≤ 2 ^ 25)

/-- Pages of a run on each Crest. -/
def runPerCrest (a n : Nat) : List Nat := (List.range 4).map fun c => (n + 3 - (c + 4 - a % 4) % 4) / 4

/-- HBM charge of a composition within its quota on every Crest (R317). -/
def hbmFits (c : Comp) (per : List Nat) : Bool :=
  (List.range 4).all fun i => decide (c.hbmUse.getD i 0 + per.getD i 0 ≤ c.hbmQ.getD i 0)

/-- Changes a composition. -/
def setComp (k : Nat) (f : Comp → Comp) (s : State) : State := { s with comps := msetD s.comps k {} (f (comp s k)) }

/-- Charges or frees pages. -/
def charge (k : Nat) (per : List Nat) (s : State) : State :=
  setComp k (fun c => { c with hbmUse := (List.range 4).map fun i => c.hbmUse.getD i 0 + per.getD i 0 }) s
def uncharge (k : Nat) (per : List Nat) (s : State) : State :=
  setComp k (fun c => { c with hbmUse := (List.range 4).map fun i => c.hbmUse.getD i 0 - per.getD i 0 }) s

/-- Allocates and zeroes `n` consecutive pages for a composition, charging its quota; none when it fails (R314, R316, R317). -/
def allocRun (k n : Nat) (share : Share) (crest : Option Nat) (s : State) : Option (Nat × State) :=
  match chooseRun s n crest with
  | none => none
  | some a =>
    let per := runPerCrest a n
    if hbmFits (comp s k) per then
      let s := useFree (charge k per s)
      let s := each (List.range n) (fun i s => { s with pages := mset s.pages (a + i) { comp := k, share } }) s
      some (a, unpoison (a * pageSize) (n * pageSize) { s with mem := memZero s.mem (a * pageSize) (n * pageSize) })
    else none

/-- Frees a run of pages (R314: zeroed again before it is mapped). -/
def freeRun (k a n : Nat) (s : State) : State :=
  uncharge k (runPerCrest a n) { s with pages := s.pages.filter fun p => decide (p.1 < a) || decide (a + n ≤ p.1) }

/-- QUOTA_EXCEEDED counted (R317, R352). -/
def quotaRej (s : State) : State := count 0x07000400 s

/-- Adds to the byte totals of Table 11-3. -/
def addHbmBytes (k n : Nat) (s : State) : State :=
  setComp k (fun c => { c with hbmBytes := satAdd (2 ^ 64 - 1) c.hbmBytes n }) s
/-- Bytes moved at an HBM address, for a composition, in the share of its page (R319, Table 11-17). -/
def hbmMoved (k a n : Nat) (s : State) : State :=
  let i := match (mget s.pages (a / pageSize)).map (·.share) with
    | some .dir => 0
    | some .win => 1
    | some .sys => 3
    | _ => 2
  addHbmBytes k n (countN (0x07000500 + 32 * pageCrest a + 8 * i) n s)
def addTrayBytes (k n : Nat) (s : State) : State :=
  setComp k (fun c => { c with trayBytes := satAdd (2 ^ 64 - 1) c.trayBytes n }) s

/-! ### Identifiers -/

/-- Takes the next internal identifier. -/
def newId (s : State) : Nat × State := (s.xlt.nextId, { s with xlt.nextId := s.xlt.nextId + 1 })

/-! ### Trays -/

/-- XLT_TRAY words. -/
def trayWord (s : State) (t off : Nat) : Nat := reg s (0x03009000 + 16 * t + off)
def trayValid (s : State) (t : Nat) : Bool := bit (trayWord s t 0) 31
def trayEp (s : State) (t : Nat) : Nat := bits (trayWord s t 0) 17 0
def trayChans (s : State) (t : Nat) : Nat := bits (trayWord s t 4) 5 0 + 1

/-- Ports of a tray in list order. -/
def trayPorts (s : State) (t : Nat) : List Nat :=
  let w0 := trayWord s t 8
  let w1 := trayWord s t 12
  ([bits w0 9 0, bits w0 25 16, bits w1 9 0, bits w1 25 16]).take (bits (trayWord s t 4) 9 8 + 1)

/-- Live ports: a valid entry, TRAY mode, ACTIVE or DEGRADED (R129, R401, R128). -/
def trayLive (s : State) (t : Nat) : List Nat :=
  if trayValid s t then (trayPorts s t).filter fun l => isLport s l && modeOf s l == 2 && live s l else []

/-- Port and channel of a tray-local address (R129). -/
def trayPick (s : State) (t a : Nat) : Option (Nat × Nat) :=
  let h := crc32c (le 8 (a >>> 12))
  let ls := trayLive s t
  if ls = [] then none else some (ls.getD (h % 65536 % ls.length) 0, h / 65536 % trayChans s t)

/-- A TAG not in flight to the tray and not sent to it within 100 µs (R131): the Talik's choice. -/
def trayTag (s : State) (t : Nat) : Nat :=
  let used := fun g => s.xlt.trays.any (·.tag == g) ||
    s.xlt.tags.any fun u => u.1 == t && u.2.1 == g && decide (s.clock.clk < u.2.2 + 100000)
  (anyFree used (freeVal s) (2 ^ 24)).getD 0

/-- Puts a tray request on the wire: from the port input of the Crest's Haul or memory side to the tray's port. -/
def sendTray (r : TrayReq) (rtx : Bool) (s : State) : State :=
  sendFrom (inMem r.crest) r.lp r.tc { r.pkt with rtx } none
    { s with xlt.tags := (s.xlt.tags.filter fun u => decide (s.clock.clk < u.2.2 + 100000)) ++ [(r.tray, r.tag, s.clock.clk)] }

/-- Issues a tray request: tracked, sent at once or once its gate opens (R128 to R130, R425). -/
def issueTray (t a : Nat) (p : Kmt) (tc crest : Nat) (ext : Option Nat) (why : Why) (gate : Gate) (s : State) :
    Option (Nat × State) :=
  match trayPick s t a with
  | none => none
  | some (lp, chan) =>
    let tag := trayTag s t
    let pkt : Kmt := { p with job := 0, space := 0, src := selfEp s, dst := trayEp s t, tag, chan, addr := a, rtx := false,
                              rsp := false, load := 0, status := 0, cmb := false }
    let r : TrayReq := { tag, tray := t, lp, tc, crest, pkt, ext, sentAt := s.clock.clk, why, gate, sent := gateOpen s gate }
    let s := useFree { s with xlt.trays := s.xlt.trays ++ [r] }
    let s := addTrayBytes p.comp p.len s
    some (tag, if gateOpen s gate then sendTray r false s else
      match gate with
      | some g => hold g (.tray tag) s
      | none => s)

/-- Is the Crest's tracker full (R130)? It holds the requests in flight, those of the block's own units among them. -/
def trackerFull (s : State) (crest : Nat) : Bool :=
  decide (65536 ≤ (s.xlt.reqs.filter (·.crest == crest)).length +
    (s.xlt.trays.filter fun r => r.crest == crest && match r.why with
      | .req _ => false
      | _ => true).length)

/-! ### Operations at the memory units -/

/-- Gives an operation to the memory units (R116). -/
def issueHbm (addr : Nat) (op : MemOp) (why : Why) (gate : Gate) (s : State) : Nat × State :=
  let (id, s) := newId s
  (id, { s with xlt.ops := s.xlt.ops ++ [{ id, addr, op, why, gate }] })

/-- Bytes an operation touches. -/
def opLen : MemOp → Nat
  | .read n => n
  | .write d => d.length
  | .atomic _ w _ => w

/-- The fold of an atomic on a value of `w` bytes (R115): the new value from the old value and the operand. -/
def atomFold (op w old : Nat) (operand : List Byte) : Nat :=
  let v := fld operand 0 w
  let n := 8 * w
  match op with
  | 0x10 => (old + v) % 2 ^ n
  | 0x11 => old &&& v
  | 0x12 => old ||| v
  | 0x13 => old ^^^ v
  | 0x14 => if sgn n old < sgn n v then v else old
  | 0x15 => if sgn n v < sgn n old then v else old
  | 0x16 => v
  | 0x17 => if old = v then fld operand w w else old
  | _ => old

/-- The operand that has the effect of two operands one after the other, for an opcode that combines (R135). -/
def operandFold (op w : Nat) (a b : List Byte) : List Byte := le w (atomFold op w (fld a 0 w) b)

/-- Atomic width: LEN, or LEN/2 for CAS (R115). -/
def atomWidth (op len : Nat) : Nat := if op = 0x17 then len / 2 else len

/-- Does a write cover only part of a poisoned ECC word (R505)? -/
def partPoison (s : State) (a n : Nat) : Bool :=
  s.poison.any fun w => decide (w * 32 < a + n) && decide (a < w * 32 + 32) && !(decide (a ≤ w * 32) && decide (w * 32 + 32 ≤ a + n))

/-- Performs an operation at HBM: status, data, and the state after it. A read or atomic of a poisoned
word, and a write of part of one, end in POISONED and change nothing (R135, R505). -/
def perform (o : HbmOp) (s : State) : Nat × List Byte × State :=
  match o.op with
  | .read n => if poisoned s o.addr n then (0x20, [], s) else (0, memRead s.mem o.addr n, s)
  | .write d => if partPoison s o.addr d.length then (0x20, [], s) else (0, [], hbmWrite o.addr d s)
  | .atomic op w v =>
    let old := memRead s.mem o.addr w
    if poisoned s o.addr w then (0x20, old, s)
    else (0, old, hbmWrite o.addr (le w (atomFold op w (leVal old) v)) s)

/-! ### Token buckets and the load hint -/

/-- XLT_EP fields of the rate limit. -/
def epRateMax (s : State) (lp : Nat) : Nat := bits (epWord s lp 4) 27 16
def epRateMin (s : State) (lp : Nat) : Nat := bits (epWord s lp 4) 11 0
def epBurst (s : State) (lp : Nat) : Nat := bits (epWord s lp 8) 15 0 * 4096

/-- Effective rate: RATE_MAX while FIXED is in force (R31, R138). -/
def effRate (s : State) (lp : Nat) : Nat :=
  if s.xlt.rateFixed then epRateMax s lp else ((mget s.xlt.buckets lp).map (·.rate)).getD (epRateMax s lp)

/-- The bucket now, refilled at the effective rate (R138). It starts full. -/
def bucket (s : State) (lp : Nat) : Bucket :=
  match mget s.xlt.buckets lp with
  | none => { fill := epBurst s lp, at_ := s.clock.clk, rate := epRateMax s lp }
  | some b => { b with fill := min (epBurst s lp) (b.fill + effRate s lp * (s.clock.clk - b.at_)), at_ := s.clock.clk }

/-- Admission removes 64 + LEN bytes. -/
def takeTokens (lp n : Nat) (s : State) : State :=
  let b := bucket s lp
  { s with xlt.buckets := mset s.xlt.buckets lp { b with fill := b.fill - ((64 + n) * 4 : Nat) } }

/-- The term b of R139. -/
def loadB (s : State) (lp : Nat) : Nat :=
  let f := (bucket s lp).fill
  let x : Int := if epBurst s lp = 0 then 0 else 16 * f / (epBurst s lp : Int)
  min 14 (15 - x).toNat

/-- LOAD of a response (R139): max of b and m, capped at 14. `m`: the tray's LOAD; for HBM the occupancy of the Crest's MEM
queues, whose size the spec does not give: a free value (log entry 9). -/
def loadOf (s : State) (lp : Nat) (m : Option Nat) : Nat := min 14 (max (loadB s lp) (m.getD (freeVal s % 15)))

/-! ### Responses, requests in flight and the reply cache -/

/-- Sends a response to the endpoint bound on the ingress port (R110). -/
def respondTo (dst lp tc : Nat) (p : Kmt) (status load : Nat) (payload : List Byte) (cmb : Bool) (gate : Gate) (s : State) :
    State :=
  sendFrom (inMem (crestOf lp)) lp tc { response p (selfEp s) status load payload cmb with dst } gate s

/-- Sends a response with the load hint of R139. -/
def respond (lp tc : Nat) (p : Kmt) (status : Nat) (payload : List Byte) (m : Option Nat) (cmb : Bool) (gate : Gate) (s : State) :
    State :=
  useFree (respondTo p.src lp tc p status (loadOf s lp m) payload cmb gate s)

/-- Refuses a request with RETRY_LATER and a stated LOAD (R139). -/
def retryLater (lp tc : Nat) (p : Kmt) (load : Nat) (s : State) : State := respondTo p.src lp tc p 0x02 load [] false none s

/-- Drops the reply-cache entries whose E2E_HOLD has passed (R142). -/
def e2eHold (s : State) : Nat := bits (reg s 0x03000000) 31 24 * 100000

/-- A live reply-cache entry (R142). -/
def cached (s : State) (crest src tag : Nat) : Option Cached :=
  s.xlt.cache.find? fun c => c.crest == crest && c.src == src && c.tag == tag && decide (s.clock.clk < c.at_ + e2eHold s)

/-- Makes or replaces a reply-cache entry. -/
def cachePut (c : Cached) (s : State) : State :=
  { s with xlt.cache := (s.xlt.cache.filter fun d => !(d.crest == c.crest && d.src == c.src && d.tag == c.tag)) ++ [c] }

/-- Is the Crest's reply cache full (R142)? -/
def cacheFull (s : State) (crest : Nat) : Bool :=
  decide (65536 ≤ (s.xlt.cache.filter fun c => c.crest == crest && decide (s.clock.clk < c.at_ + e2eHold s)).length)

/-- The opcodes whose replies the cache keeps: WR, atomics, FLUSH, PUBLISH. -/
def isUpdate (op : Nat) : Bool := op == 0x02 || (decide (0x10 ≤ op) && decide (op ≤ 0x17)) || op == 0x20 || op == 0x21

/-- A request in flight. -/
def findReq (s : State) (id : Nat) : Option Req := s.xlt.reqs.find? (·.id == id)

/-- A request ends: its response is sent, its reply cached, the requests that waited for it go on, and a revocation counts it
(R116, R142, R143). `term`: it ended by the drain timeout. -/
def endReq (id status : Nat) (payload : List Byte) (m : Option Nat) (cmb term : Bool) (gate : Gate) (s : State) : State :=
  match findReq s id with
  | none => s
  | some r =>
    let s := { s with xlt.reqs := (s.xlt.reqs.filter (·.id != id)).map fun q => { q with waits := q.waits.filter (· != id) } }
    let s := if isUpdate r.pkt.opcode ∧ status ≠ 0x02 then
        cachePut { crest := r.crest, src := r.pkt.src, tag := r.pkt.tag, status, data := payload.take 8, at_ := s.clock.clk } s
      else s
    let s := match r.ext with
      | none => s
      | some x => { s with xlt.revokes := modIf (·.ext == x) (fun v =>
          if term then { v with term := v.term + 1 } else { v with normal := v.normal + 1 }) s.xlt.revokes }
    let s := if status = 0x21 then count 0x03000450 s else if status = 0x14 then count 0x03000420 s else s
    respond r.lp r.tc r.pkt status payload m cmb gate s

/-- A TIER fault record for a request (CLASS 0x08). -/
def tierFault (cause k space : Nat) (s : State) : State := fault 8 cause (some k) space 0x03000450 0 2 s

/-- FLUSHes that wait for nothing more end with OK (R116). -/
def endFlushes (s : State) : State :=
  each (s.xlt.reqs.filter fun r => r.pkt.opcode == 0x20 && r.waits.isEmpty) (fun r => endReq r.id 0 [] none false false none) s

/-! ### Combining windows -/

/-- Fields of SWX_COMB_CFG. -/
def combWin (s : State) : Nat := bits (reg s 0x0200000C) 8 4 * 50
def combMax (s : State) : Nat := bits (reg s 0x0200000C) 15 9

/-- Is combining on for a class (TC1 or TC3) on a Crest (R137, SWX_COMB_STATE.ON)? -/
def combOn (s : State) (crest tc : Nat) : Bool := bit s.xlt.combOn (2 * crest + (if tc = 1 then 0 else 1))

/-- May the class and opcode combine (R133)? -/
def joinable (tc op : Nat) : Bool :=
  (tc == 1 && (op == 0x01 || (decide (0x10 ≤ op) && decide (op ≤ 0x15)))) || (tc == 3 && op == 0x01)

/-- Is the window one for atomics? -/
def isAtomWin (w : Window) : Bool := w.op != 0x01

/-- The operands of a window's requests in order. -/
def winOperands (s : State) (w : Window) : List (List Byte) :=
  w.reqs.map fun i => ((findReq s i).map (·.pkt.payload)).getD (zeros w.len)

/-- Requests of a log record: SRC, TAG and operand (Table 15-4). -/
def reqList (rs : List Req) : List Byte :=
  (rs.map fun r => le 4 r.pkt.src ++ le 4 r.pkt.tag ++ padTo 16 r.pkt.payload).flatten

/-- WRI record of an HBM WR (Table 15-4). -/
def wriRec (p : Kmt) : LogRec :=
  { rtype := 2, comp := p.comp
    body := le 2 p.space ++ le 2 p.len ++ zeros 4 ++ le 8 p.addr ++ le 4 p.src ++ le 4 p.tag ++ padMul 8 (p.payload.take p.len) }

/-- ATI record of an atomic at HBM (Table 15-4). -/
def atiRec (p : Kmt) (w : Nat) (rs : List Req) : LogRec :=
  { rtype := 3, comp := p.comp
    body := le 2 p.space ++ le 1 p.opcode ++ le 1 w ++ le 2 rs.length ++ zeros 2 ++ le 8 p.addr ++ reqList rs }

/-- TRI record of a tray WR or atomic (Table 15-4); the record names the TAG that the request will carry. -/
def triRec (s : State) (t a tag chan : Nat) (p : Kmt) (rs : List Req) : LogRec :=
  { rtype := 4, comp := p.comp
    body := le 4 (trayEp s t) ++ le 4 tag ++ le 1 p.opcode ++ le 1 chan ++ le 2 p.len ++ le 2 rs.length ++ zeros 2 ++ le 8 a ++
      padMul 8 p.payload ++ reqList rs }

/-- Old values of the joined requests: the fold of the memory's old value with the operands before each (R135). -/
def prefixes (op w : Nat) : Nat → List (List Byte) → List (List Byte)
  | _, [] => []
  | old, v :: vs => le w old :: prefixes op w (atomFold op w old v) vs

/-- Requesters of a TRI record's body (24 bytes each) with the old values that answer them (Table 15-4, R135). -/
def triOlds (b : List Byte) (status old : Nat) : List (List Byte × List Byte) :=
  let op := byteAt b 8
  let pl := (fld b 10 2 + 7) / 8 * 8
  let rq := (List.range (fld b 12 2)).map fun j => slice b (24 + pl + 24 * j) 24
  rq.zip (if op = 0x02 ∨ status ≠ 0 then rq.map fun _ => ([] : List Byte)
    else prefixes op (atomWidth op (fld b 10 2)) old (rq.map fun q => q.drop 8))

/-- Requesters of an ATI record's body with the old values that answer them. -/
def atiOlds (b : List Byte) (old : Nat) : List (List Byte × List Byte) :=
  let rq := (List.range (fld b 4 2)).map fun j => slice b (16 + 24 * j) 24
  rq.zip (prefixes (byteAt b 2) (byteAt b 3) old (rq.map fun q => q.drop 8))

/-- Digests of the replies that a WRI, ATI or DONE record answers (R438). `tri`: the body of the TRI that a DONE closes. -/
def replyDigests (c lsn : Nat) (r : LogRec) (tri : List Byte) (status old : Nat) (s : State) : State :=
  let b := r.body
  let put := fun (op dst space addr : Nat) (data : List Byte) (s : State) =>
    digestOut c lsn r.comp (digestBytes op r.comp data.length 0 dst space 0 addr data) s
  match r.rtype with
  | 2 => put 0x02 (fld b 16 4) (fld b 0 2) (fld b 8 8) [] s
  | 3 => each (atiOlds b old) (fun q s => put (byteAt b 2) (fld q.1 0 4) (fld b 0 2) (fld b 8 8) q.2 s) s
  | 5 => each (triOlds tri status old) (fun q s => put (byteAt tri 8) (fld q.1 0 4) 0 (fld tri 16 8) q.2 s) s
  | _ => s

/-- Bytes of HBM once every operation given to the memory units has been performed. -/
def memAhead (s : State) (a n : Nat) : List Byte := memRead (s.xlt.ops.foldl (fun s o => (perform o s).2.2) s).mem a n

/-- Logs a WRI, ATI or DONE record and digests its replies (R425, R438). -/
def logUpdate (c : Nat) (r : LogRec) (tri : List Byte) (status old : Nat) (s : State) : State × Gate :=
  let n := (lane s c).nextLsn
  let (s, g) := logRec c r s
  (replyDigests c n r tri status old s, g)

/-- Logs the intent of a tray WR or atomic on the translating Crest's lane (R424, R425). -/
def logTray (t a crest : Nat) (p : Kmt) (rs : List Req) (s : State) : State × Gate :=
  logRec crest (triRec s t a (trayTag s t) ((trayPick s t a).map (·.2) |>.getD 0) p rs) s

/-- Sends a memory operation of a request or window to the extent's memory, logging it first where it is mirrored (R425). -/
def memDirect (e : Extent) (x : Nat) (p : Kmt) (tc crest : Nat) (rs : List Req) (why : Why) (s : State) : Option State :=
  let a := extAddr e p.addr
  let w := atomWidth p.opcode p.len
  if e.hbm then
    let op : MemOp := if p.opcode = 0x01 then .read p.len else if p.opcode = 0x02 then .write (p.payload.take p.len)
      else .atomic p.opcode w p.payload
    let (s, g) := if p.opcode = 0x01 then (s, none)
      else if p.opcode = 0x02 then
        logUpdate (pageCrest a) (wriRec p) [] 0 0 s
      else logUpdate (pageCrest a) (atiRec p w rs) [] 0 (leVal (memAhead s a w)) s
    some (issueHbm a op why g s).2
  else
    if p.opcode = 0x01 ∨ trayLive s e.tray = [] then (issueTray e.tray a p tc crest (some x) why none s).map (·.2)
    else
      -- the tracker entry keeps the LSN of its TRI record, so that its answer is logged as DONE
      let intent := if logging s p.comp then some (crest, (lane s crest).nextLsn) else none
      let (s, g) := logTray e.tray a crest p rs s
      (issueTray e.tray a p tc crest (some x) why g s).map fun r =>
        { r.2 with xlt.trays := modIf (·.tag == r.1) (fun v => { v with intent }) r.2.xlt.trays }

/-- Ends every request of a window with one status (R135). -/
def endWindow (w : Window) (status : Nat) (data : List (List Byte)) (m : Option Nat) (gate : Gate) (s : State) : State :=
  let cmb := decide (1 < w.reqs.length)
  let s := { s with xlt.windows := s.xlt.windows.filter (·.id != w.id) }
  (w.reqs.zip data).foldl (fun s d => endReq d.1 status d.2 m cmb false gate s) s

/-- A window's memory operation has ended: every joined request is answered (R134, R135). -/
def winDone (id status : Nat) (data : List Byte) (m : Option Nat) (gate : Gate) (s : State) : State :=
  match s.xlt.windows.find? (·.id == id) with
  | none => s
  | some w =>
    let d := if !isAtomWin w then w.reqs.map fun _ => data
      else if status = 0 then prefixes w.op w.len (leVal data) (winOperands s w)
      else w.reqs.map fun _ => if w.reqs.length > 1 then data else []
    endWindow w status d m gate s

/-- A tray piece of a unit's read has been answered. -/
def fillPiece (id tag status : Nat) (data : List Byte) (s : State) : State :=
  { s with reads := mmod s.reads id fun r =>
      { r with pieces := modIf (fun p => !p.hbm && p.tag == tag && p.got.isNone) (fun p => { p with got := some (status, data) }) r.pieces } }

end Sys2Proof.Machine
end

