-- ==== Sys2Proof/Machine/Capture.lean ====
section
/-! DEFINITION. The header capture ring (R106, R107). -/

namespace Sys2Proof.Machine

/-- A capture record (Table 3-6); a CONFIDENTIAL frame keeps its first 30 bytes only (R107). -/
def captureRec (s : State) (point : Nat) (f : List Byte) (inLp outLp tc k : Nat) (poison mcast : Bool) (drop flen : Nat) :
    List Byte :=
  let red := conf s k
  padTo 128 (if red then f.take 30 else f) ++ le 8 s.clock.tb ++ le 2 inLp ++ le 2 outLp ++
    le 1 (b2n red * 128 + b2n mcast * 64 + b2n poison * 32 + point * 8 + tc) ++ le 1 drop ++ le 2 flen ++ le 1 k ++ zeros 3 ++
    le 4 s.sw.capSeq ++ zeros 104

/-- A frame passes a capture point: 0 ingress, 1 egress, 2 drop (R106). -/
def captureAtPoint (point : Nat) (f : List Byte) (inLp outLp tc k : Nat) (poison mcast : Bool) (drop flen : Nat) (s : State) :
    State :=
  let cfg := reg s 0x0B000000
  match s.sw.capture with
  | none => s
  | some c =>
    if !(bit (bits cfg 2 0) point && bit (bits cfg 31 24) tc && (bit cfg 17 || bits cfg 23 18 == k)) then s else
    let n := s.sw.capSkip.getD point 0 + 1
    if n < reg s 0x0B000004 % 2 ^ 24 then { s with sw.capSkip := s.sw.capSkip.set point n } else
    let s := { s with sw.capSkip := s.sw.capSkip.set point 0 }
    if !bit cfg 16 && decide (c.size ≤ s.sw.capIdx * 256) then attn 11 (count 0x0B000020 s) else
    let off := s.sw.capIdx * 256 % c.size
    let a := c.pages.getD (off / pageSize) 0 * pageSize + off % pageSize
    let s := hbmWrite a (captureRec s point f inLp outLp tc k poison mcast drop flen) s
    { s with sw.capIdx := s.sw.capIdx + 1, sw.capSeq := s.sw.capSeq + 1 }

end Sys2Proof.Machine
end

