-- ==== Sys2Proof/Machine/Directory.lean ====
section
/-! DEFINITION. The Coherent Aperture's directory (chapter 5): regions, agents, entries, line transactions, probes, Belay
holds, deaths and walks. -/

namespace Sys2Proof.Machine

/-! ### Regions, apertures and agents -/

/-- The line of an offset, its directory key, and its slice (R17). -/
def lineOf (a : Nat) : Nat := a / 64 * 64
def lkey (space line : Nat) : Nat := space * 2 ^ 40 + line / 64
def sliceOf (line : Nat) : Nat := line / 64 % 4

/-- The region that an offset lies in (R146): index and region. -/
def regionAt (s : State) (space a : Nat) : Option (Nat × Region) :=
  s.dir.regions.find? fun r => r.2.space == space && decide (r.2.base ≤ a) && decide (a < r.2.base + r.2.size)

/-- Does an offset lie in a COHERENT region? -/
def coherentAt (s : State) (space a : Nat) : Bool := ((regionAt s space a).map (·.2.mode == 0)).getD false

/-- Aperture index of a space (R148). -/
def aptOf (s : State) (space : Nat) : Option Nat := (s.dir.apts.find? (·.2 == space)).map (·.1)

/-- An agent number of an aperture (Table 5-10). -/
def agentAt (s : State) (apt n : Nat) : Agent := mgetD s.dir.agents (512 * apt + n) {}

/-- Composition of a space. -/
def spaceComp (s : State) (space : Nat) : Nat := ((mget s.xlt.spaces space).map (·.comp)).getD 0

/-- AGENT record (Table 15-4). -/
def agentRec (s : State) (apt n : Nat) (a : Agent) : LogRec :=
  let space := mgetD s.dir.apts apt 0
  { rtype := 9, comp := spaceComp s space
    body := le 2 space ++ le 2 n ++ le 1 a.st ++ le 1 a.cause ++ zeros 2 ++ le 4 a.ep ++ zeros 4 }

/-- Sets an agent number and logs it on lane 0 (R173, R424). -/
def setAgent (apt n : Nat) (a : Agent) (s : State) : State × Gate :=
  logRec 0 (agentRec s apt n a) { s with dir.agents := msetD s.dir.agents (512 * apt + n) {} a }

/-- The LIVE agent number of an endpoint in an aperture (R150). -/
def liveAgent (s : State) (apt ep : Nat) : Option Nat :=
  (s.dir.agents.find? fun a => a.1 / 512 == apt && a.2.st == 1 && a.2.ep == ep).map (·.1 % 512)

/-- Number of agent numbers of an aperture in a state. -/
def agentCount (s : State) (apt st : Nat) : Nat :=
  (s.dir.agents.filter fun a => a.1 / 512 == apt && a.2.st == st).length

/-- The logical port to which an endpoint is bound (R121). -/
def boundPort (s : State) (ep : Nat) : Option Nat :=
  (s.lports.map (·.1)).find? fun l => isLport s l && modeOf s l == 1 && epValid s l && epId s l == ep

/-! ### Entries -/

/-- Directory entry of a line; an unlisted one reads I (R149). -/
def dirEnt (s : State) (space line : Nat) : DirEnt := mgetD s.dir.ents (lkey space line) {}

/-- The 16 bytes of an entry (Table 5-2). -/
def entBytes (e : DirEnt) : List Byte :=
  let sh := if e.coarse then e.mask else
    ((List.range 4).zip e.ptrs).foldl (fun v q => v + ((512 + q.2) <<< (10 * q.1))) 0
  le 8 sh ++ le 8 ((e.st <<< 61) + (b2n e.coarse <<< 60))

/-- DIRENT record (Table 15-4). -/
def direntRec (s : State) (space line : Nat) (e : DirEnt) : LogRec :=
  { rtype := 7, comp := spaceComp s space, body := le 2 space ++ zeros 6 ++ le 8 line ++ entBytes e }

/-- Sets an entry; logs it when it changes, or when it closes an open transaction (R173, Table 15-4). -/
def putEnt (space line : Nat) (e : DirEnt) (always : Bool) (s : State) : State × Gate :=
  let old := dirEnt s space line
  if old = e ∧ !always then (s, none) else
  let s := if e.coarse ∧ !old.coarse then count 0x04000468 s else s
  logRec (sliceOf line) (direntRec s space line e) { s with dir.ents := msetD s.dir.ents (lkey space line) {} e }

/-- What a dead agent leaves of an entry (R166 step 3). -/
def cleared (s : State) (apt : Nat) (e : DirEnt) : DirEnt :=
  let isDead := fun n => (agentAt s apt n).st == 2
  match e.st with
  | 3 => if e.ptrs.any isDead then { st := 4 } else e
  | 2 => if e.ptrs.any isDead then {} else e
  | 1 =>
    if e.coarse then e else
    let ps := e.ptrs.filter (!isDead ·)
    if ps = [] then {} else { e with ptrs := ps }
  | _ => e

/-- A slice touches an entry (R166 step 3). -/
def touch (space line : Nat) (s : State) : State :=
  let e := dirEnt s space line
  let e' := cleared s ((aptOf s space).getD 64) e
  if e' = e then s else
  let s := if e'.st = 4 then count 0x04000440 s else s
  (putEnt space line e' false s).1

/-- The holders named in an entry, other than X (R159): in coarse form every live agent of a group whose bit is set. -/
def holders (s : State) (apt : Nat) (e : DirEnt) (x : Option Nat) : List Nat :=
  let l := if e.coarse then
      (s.dir.agents.filter fun a => a.1 / 512 == apt && a.2.st == 1 && bit e.mask (a.1 % 512 / 8)).map (·.1 % 512)
    else e.ptrs
  l.filter fun n => some n != x

/-- Adds a sharer; a fifth one changes the entry to coarse form (R155). -/
def addSharer (e : DirEnt) (x : Nat) : DirEnt :=
  if e.coarse then { e with mask := e.mask ||| 2 ^ (x / 8) }
  else if x ∈ e.ptrs then e
  else if e.ptrs.length < 4 then { e with st := 1, ptrs := e.ptrs ++ [x] }
  else { st := 1, coarse := true, mask := (e.ptrs ++ [x]).foldl (fun m n => m ||| 2 ^ (n / 8)) 0 }

/-! ### Busy lines -/

/-- The transaction of a busy line. -/
def findTxn (s : State) (space line : Nat) : Option Txn := s.dir.txns.find? fun t => t.space == space && t.line == line

/-- Changes the transaction of a line. -/
def setTxn (space line : Nat) (f : Txn → Txn) (s : State) : State :=
  { s with dir.txns := modIf (fun t => t.space == space && t.line == line) f s.dir.txns }

/-- Busy lines and queued requests of a slice, with the places reserved for lines of uncached requests (R157, R161). -/
def reserved (s : State) (slice : Nat) : Nat :=
  sum (s.dir.multis.map fun m => (m.left.filter (sliceOf · == slice)).length)
def busyLines (s : State) (slice : Nat) : Nat := (s.dir.txns.filter (sliceOf ·.line == slice)).length + reserved s slice
def queuedReqs (s : State) (slice : Nat) : Nat :=
  sum ((s.dir.txns.filter (sliceOf ·.line == slice)).map (·.queue.length)) + reserved s slice

/-- Is there no place for a request for one line (R157)? -/
def lineFull (s : State) (space line : Nat) : Bool :=
  match findTxn s space line with
  | some _ => decide (4096 ≤ queuedReqs s (sliceOf line))
  | none => decide (8192 ≤ busyLines s (sliceOf line))

/-- Lines that a byte range covers. -/
def linesOf (a n : Nat) : List Nat := (List.range ((a + n - 1) / 64 - a / 64 + 1)).map fun i => lineOf a + 64 * i

/-- Is there no place for every line of an uncached request (R161)? -/
def multiFull (s : State) (a n : Nat) : Bool :=
  (List.range 4).any fun c =>
    let k := ((linesOf a n).filter (sliceOf · == c)).length
    k != 0 && (decide (8192 < busyLines s c + k) || decide (4096 < queuedReqs s c + k))

/-- Is the request still waited for? A request that has been ended (drain timeout, QUIESCE) takes nothing. -/
def whomAlive (s : State) : Why → Bool
  | .req id => (findReq s id).isSome
  | .window id => s.xlt.windows.any (·.id == id)
  | _ => true

/-- The answer of a memory operation goes to whom it was made for. `m`: LOAD of a tray's response. -/
def giveTo (whom : Why) (tag status : Nat) (data : List Byte) (m : Option Nat) (gate : Gate) (s : State) : State :=
  match whom with
  | .req id => endReq id status data m false false gate s
  | .window id => winDone id status data m gate s
  | .unit r => fillPiece r tag status data (if status = 0x21 then count 0x03000450 s else s)
  | _ => if status = 0x21 then count 0x03000450 s else s

/-- The transaction has ended but for the write of a returned line (R157). -/
def endTxn (space line : Nat) (s : State) : State := setTxn space line (fun t => { t with phase := 4, probes := [] }) s

/-- The answer to the line's request: a coherent request's response, or one line of an uncached request. -/
def lineReply (t : Txn) (status : Nat) (data : List Byte) (gate : Gate) (s : State) : State :=
  let s := match t.req.multi with
    | none => if t.req.op = 0 then s else giveTo t.req.whom t.req.pkt.tag status data none gate s
    | some id => { s with dir.multis := modIf (·.id == id) (fun m => { m with busy := false, got := m.got ++ [(status, data)] })
                            s.dir.multis }
  endTxn t.space t.line s

/-- A grant word (R153). -/
def grantWord (g : Nat) (d : Bool) : List Byte := le 8 (g + 8 * b2n d)

/-- A grant that fails after its probes were logged closes the open DIRTX with the entry as it stands (R160, Table 15-4). -/
def closeTx (t : Txn) (s : State) : State :=
  if t.logged && decide (0x30 ≤ t.req.op) && decide (t.req.op ≤ 0x32) then
    (putEnt t.space t.line (dirEnt s t.space t.line) true s).1
  else s

/-- Sends a grant: the entry changes, a Belay hold starts (R162). While every hold record is in use the grant waits (R163). -/
def grantNow (t : Txn) (data : Option (List Byte)) (s : State) : State :=
  if !whomAlive s t.req.whom then endTxn t.space t.line (closeTx t s)
  else if 16384 ≤ (s.dir.holds.filter (sliceOf ·.line == sliceOf t.line)).length then
    count 0x04000420 (setTxn t.space t.line (fun v => { v with phase := 3, gdata := data }) s)
  else
    let (s, g) := putEnt t.space t.line t.next t.logged s
    let h : Belay := { space := t.space, line := t.line, agent := t.req.agent, till := s.clock.clk + reg s 0x04000004 % 2 ^ 14 }
    let s := { s with dir.holds := s.dir.holds ++ [h] }
    lineReply t 0 (grantWord t.grant data.isSome ++ data.getD []) g s

/-- A memory operation on bytes of the line. -/
def lineMem (t : Txn) (p : Kmt) (why : Why) (s : State) : Option State :=
  match extAt s t.space t.line with
  | none => none
  | some (x, e) =>
    let rs : List Req := match t.req.whom with
      | .req id => (findReq s id).toList
      | .window id => ((s.xlt.windows.find? (·.id == id)).map fun w => w.reqs.filterMap (findReq s)).getD []
      | _ => []
    memDirect e x p t.req.tc (sliceOf t.line) rs why s

/-- The Talik's own request for a line's bytes. -/
def linePkt (s : State) (t : Txn) (op : Nat) (data : List Byte) : Kmt :=
  { opcode := op, comp := spaceComp s t.space, len := 64, src := selfEp s, space := t.space, addr := t.line, payload := data }

/-- Reads the line, or performs the request's update, at memory; the transaction goes on when that ends. -/
def atMemory (t : Txn) (p : Kmt) (s : State) : State :=
  let s := setTxn t.space t.line (fun v => { v with phase := 2 }) s
  match lineMem t p (.line t.space t.line) s with
  | some s => s
  | none => tierFault 2 (spaceComp s t.space) t.space (lineReply t 0x21 [] none (closeTx t s))

/-- Writes a returned line to memory (R158). -/
def writeBack (t : Txn) (d : List Byte) (s : State) : State :=
  match lineMem t (linePkt s t 0x02 d) (.lineWb t.space t.line) s with
  | some s => setTxn t.space t.line (fun v => { v with wb := true }) s
  | none => tierFault 2 (spaceComp s t.space) t.space s

/-- Merges the bytes of an uncached WR or atomic over a returned line (Table 5-3): the whole line, and the old value. -/
def mergeLine (p : Kmt) (d : List Byte) : List Byte × List Byte :=
  let o := p.addr % 64
  if p.opcode = 0x02 then (d.take o ++ p.payload.take p.len ++ d.drop (o + p.len), [])
  else
    let w := atomWidth p.opcode p.len
    let old := slice d o w
    (d.take o ++ le w (atomFold p.opcode w (leVal old) p.payload) ++ d.drop (o + w), old)

/-- Is the opcode one of a coherent line request? -/
def isLineOp (op : Nat) : Bool := decide (0x30 ≤ op) && decide (op ≤ 0x34)

/-- A line in P, or a poisoned answer (R160, the rows P of Table 5-3). -/
def poisonLine (t : Txn) (s : State) : State :=
  let e := dirEnt s t.space t.line
  let s := if e.st = 4 then s else (putEnt t.space t.line { st := 4 } true (count 0x04000440 s)).1
  let t := { t with pois := true }
  let s := setTxn t.space t.line (fun v => { v with pois := true }) s
  let op := t.req.op
  if op = 0 ∨ op = 0x33 ∨ op = 0x34 then lineReply t 0 [] none s
  else if op = 0x02 ∧ t.req.pkt.len = 64 then atMemory t t.req.pkt s
  else if 0x10 ≤ op ∧ op ≤ 0x17 then atMemory t { t.req.pkt with opcode := 0x01, len := atomWidth op t.req.pkt.len } s
  else lineReply t 0x20 [] none s

/-- What the answered probes leave of an entry before the requester is served (R160). -/
def probedEnt (e : DirEnt) (op : Nat) (x : Option Nat) : DirEnt :=
  if op = 0x39 then (if e.st = 2 ∨ e.st = 3 then { st := 1, ptrs := e.ptrs } else e)
  else if op = 0x38 then
    match x with
    | none => {}
    | some n =>
      if e.coarse then (if bit e.mask (n / 8) then { e with mask := 2 ^ (n / 8) } else {})
      else if e.st = 1 ∧ n ∈ e.ptrs then { st := 1, ptrs := [n] } else {}
  else e

/-- The requester as an agent, if it is one. -/
def reqAgent (r : LineReq) : Option Nat := if isLineOp r.op then some r.agent else none

/-- The probe a row of Table 5-3 sends, if any, and to whom (R159). -/
def rowProbes (s : State) (apt : Nat) (e : DirEnt) (r : LineReq) : Option (Nat × List Nat) :=
  let x := reqAgent r
  let own := e.ptrs.headD 0
  match e.st with
  | 1 => if r.op = 0x30 ∨ r.op = 0x33 ∨ r.op = 0x34 ∨ r.op = 0x01 then none else some (0x38, holders s apt e x)
  | 2 =>
    if x = some own ∨ r.op = 0x33 ∨ r.op = 0x34 ∨ r.op = 0x01 then none
    else some (if r.op = 0x30 then 0x39 else 0x38, [own])
  | 3 =>
    if x = some own ∨ r.op = 0x33 ∨ r.op = 0x34 then none
    else some (if r.op = 0x30 then 0x39 else if r.op = 0x01 then 0x3A else 0x38, [own])
  | _ => none

/-- Grants once the data is there: at once when a probe returned it or none is sent, else after the read. -/
def grantLine (t : Txn) (g : Nat) (next : DirEnt) (withData : Bool) (s : State) : State :=
  let t := { t with grant := g, next }
  let s := setTxn t.space t.line (fun v => { v with grant := g, next }) s
  if !withData then grantNow t none s
  else match t.data with
    | some d => grantNow t (some d) s
    | none => atMemory t (linePkt s t 0x01 []) s

/-- An uncached WR or atomic goes to memory, merged over the line a probe returned (Table 5-3). The line ends in I. -/
def uncachedWrite (t : Txn) (s : State) : State :=
  let (s, _) := putEnt t.space t.line {} t.logged s
  match t.data with
  | none => atMemory t t.req.pkt s
  | some d =>
    let (l, old) := mergeLine t.req.pkt d
    let s := setTxn t.space t.line (fun v => { v with old }) s
    atMemory { t with old }
      { t.req.pkt with opcode := 0x02, len := 64, addr := t.line, payload := l } s

/-- Table 5-3 once no probe is awaited. `e0`: the entry before the probes' effect; `e`: after it. -/
def resolveRow (t : Txn) (e0 : DirEnt) (s : State) : State :=
  let x := t.req.agent
  let own := e0.ptrs.head? == some x && (e0.st == 2 || e0.st == 3)
  let rec_ := e0.st == 1 && !e0.coarse && decide (x ∈ e0.ptrs)
  let grantOf := if e0.st = 3 then 3 else if e0.st = 2 then 2 else 1
  match t.req.op with
  | 0x30 =>
    if own ∨ rec_ then grantLine t grantOf e0 true s
    else if e0.st = 0 then grantLine t 2 { st := 2, ptrs := [x] } true s
    else if e0.st = 1 then grantLine t 1 (addSharer e0 x) true s
    else grantLine t 1 { st := 1, ptrs := e0.ptrs ++ [x] } true s
  | 0x31 => if own then grantLine t grantOf e0 true s else grantLine t 3 { st := 3, ptrs := [x] } true s
  | 0x32 =>
    if own ∧ e0.st = 3 then grantLine t 3 e0 true s
    else grantLine t 3 { st := 3, ptrs := [x] } (!(own || rec_)) s
  | 0x33 =>
    if own ∧ e0.st = 3 then atMemory t (linePkt s t 0x02 t.req.pkt.payload) s
    else if own then
      let (s, g) := putEnt t.space t.line {} false s
      lineReply t 0 [] g s
    else lineReply t 0 [] none (count 0x04000430 s)
  | 0x34 =>
    if own then
      let (s, g) := putEnt t.space t.line {} false s
      lineReply t 0 [] g s
    else if rec_ then
      let ps := e0.ptrs.filter (· != x)
      let (s, g) := putEnt t.space t.line (if ps = [] then {} else { e0 with ptrs := ps }) false s
      lineReply t 0 [] g s
    else lineReply t 0 [] none s
  | 0x01 =>
    match t.data with
    | some d => lineReply t 0 (slice d (t.req.pkt.addr % 64) t.req.pkt.len) none (putEnt t.space t.line e0 t.logged s).1
    | none => atMemory t t.req.pkt (if t.logged then (putEnt t.space t.line e0 true s).1 else s)
  | 0 => lineReply t 0 [] none (putEnt t.space t.line {} t.logged s).1
  | _ => uncachedWrite t s

/-- Every probe has been answered (or none was needed): returned data is written, and the row is completed (R157 to R160). -/
def resolveLine (space line : Nat) (probe : Nat) (s : State) : State :=
  let s := touch space line s
  match findTxn s space line with
  | none => s
  | some t =>
    let isWr := t.req.op == 0x02 || (decide (0x10 ≤ t.req.op) && decide (t.req.op ≤ 0x17))
    let s := match t.data with
      | some d => if isWr && !t.pois then s else writeBack t d s
      | none => s
    let e0 := dirEnt s space line
    if t.pois ∨ e0.st = 4 then poisonLine t s else
    -- the probes' own effect on the entry, kept when the request then fails (R160)
    let e := if probe = 0 then e0 else probedEnt e0 probe (reqAgent t.req)
    let s := { s with dir.ents := msetD s.dir.ents (lkey space line) {} e }
    resolveRow t e0 s

/-- The probe packet (R154). -/
def probePkt (s : State) (space line : Nat) (p : Probe) (rtx : Bool) : Kmt :=
  { opcode := p.op, rtx, comp := spaceComp s space, src := selfEp s, dst := p.ep, tag := p.tag, space, addr := line }

/-- Sends a probe on the logical port to which the agent's endpoint is bound; without a link it is lost (R165 then applies). -/
def sendProbe (space line : Nat) (p : Probe) (rtx : Bool) (gate : Gate) (s : State) : State :=
  let s := count 0x04000410 s
  match boundPort s p.ep with
  | none => s
  | some l =>
    if live s l || (lport s l).st == 6 then sendFrom (inMem (sliceOf line)) l 1 (probePkt s space line p rtx) gate s else s

/-- Does a Belay hold delay a probe (R162)? -/
def belayed (s : State) (space line agent op : Nat) : Bool :=
  op != 0x3A && s.dir.holds.any fun h => h.space == space && h.line == line && h.agent == agent && decide (s.clock.clk < h.till)

/-- A TAG for a probe: the Talik's choice among those not in use. -/
def probeTag (s : State) : Nat :=
  (anyFree (fun g => s.dir.txns.any fun t => t.probes.any (·.tag == g)) (freeVal s) (2 ^ 24)).getD 0

/-- DIRTX record (Table 15-4). -/
def dirtxRec (s : State) (t : Txn) (ps : List Probe) : LogRec :=
  { rtype := 6, comp := spaceComp s t.space
    body := le 2 t.space ++ le 2 ps.length ++ zeros 4 ++ le 8 t.line ++ le 4 t.req.pkt.src ++ le 4 t.req.pkt.tag ++
      le 1 t.req.op ++ zeros 7 ++ (ps.map fun p => le 2 p.agent ++ le 1 p.op ++ zeros 1 ++ le 4 p.tag).flatten }

/-- Starts the probes of a transaction: logged first where mirrored, delayed by a Belay hold, else sent (R154, R162, R425). -/
def startProbes (t : Txn) (apt op : Nat) (agents : List Nat) (s : State) : State :=
  let mk := agents.foldl (fun (acc : List Probe × State) n =>
    let s := acc.2
    let used := fun g => acc.1.any (·.tag == g) || s.dir.txns.any fun t => t.probes.any (·.tag == g)
    let p : Probe := { tag := (anyFree used (freeVal s) (2 ^ 24)).getD 0, agent := n, ep := (agentAt s apt n).ep, op
                       sentAt := s.clock.clk, delayed := belayed s t.space t.line n op }
    (acc.1 ++ [p], useFree s)) ([], s)
  let ps := mk.1
  let (s, g) := logRec (sliceOf t.line) (dirtxRec mk.2 t ps) mk.2
  let s := setTxn t.space t.line (fun v => { v with
    phase := 1, probes := ps, gate := g, logged := logging s (spaceComp s t.space) }) s
  each ps (fun p s => if p.delayed then count 0x04000418 s else sendProbe t.space t.line p false g s) s

/-- A line's request proceeds with its entry at hand (Table 5-3). -/
def goLine (space line : Nat) (s : State) : State :=
  let s := touch space line s
  match findTxn s space line with
  | none => s
  | some t =>
    if !whomAlive s t.req.whom || t.req.multi.any (fun id => !s.dir.multis.any (·.id == id)) then lineReply t 0x14 [] none s else
    let apt := (aptOf s space).getD 64
    match rowProbes s apt (dirEnt s space line) t.req with
    | some (op, n :: ns) => startProbes t apt op (n :: ns) s
    | _ => resolveLine space line 0 s

/-- Starts a request on a line that is not busy: the entry is in the directory cache, or is read first (R156). -/
def beginLine (space line : Nat) (r : LineReq) (q : List LineReq) (s : State) : State :=
  let s := { s with dir.txns := s.dir.txns ++ [{ space, line, req := r, queue := q }] }
  if lkey space line ∈ s.dir.cache then goLine space line (count 0x04000400 s) else count 0x04000408 s

/-- Serves the queue of a line that has stopped being busy, in order of arrival (R157). A request that ends within the step
leaves the line free for the next. -/
def serveLine : Nat → Nat → Nat → List LineReq → State → State
  | 0, _, _, _, s => s
  | _ + 1, _, _, [], s => s
  | n + 1, space, line, r :: rest, s =>
    let s := beginLine space line r rest s
    match findTxn s space line with
    | some t =>
      if t.phase = 4 ∧ !t.wb then
        serveLine n space line t.queue { s with dir.txns := s.dir.txns.filter fun v => !(v.space == space && v.line == line) }
      else s
    | none => s

/-- A request for a line arrives at its slice (R157). -/
def lineRequest (space line : Nat) (r : LineReq) (s : State) : State :=
  match findTxn s space line with
  | some _ => setTxn space line (fun t => { t with queue := t.queue ++ [r] }) s
  | none => serveLine 1 space line [r] s

/-- The part of an uncached request that lies in one line. -/
def cutLine (p : Kmt) (line : Nat) : Kmt :=
  if p.opcode = 0x01 ∨ p.opcode = 0x02 then
    let lo := max p.addr line
    let hi := min (p.addr + p.len) (line + 64)
    { p with addr := lo, len := hi - lo, payload := slice p.payload (lo - p.addr) (hi - lo) }
  else p

/-- One uncached request goes on to its next line, or ends: with the status of its first failing line, else OK. -/
def stepMulti (m : Multi) (s : State) : State :=
  match m.left with
  | [] =>
    let s := { s with dir.multis := s.dir.multis.filter (·.id != m.id) }
    match m.got.find? (·.1 != 0) with
    | some (st, d) => giveTo m.whom m.pkt.tag st d none none s
    | none => giveTo m.whom m.pkt.tag 0 (m.got.map (·.2)).flatten none none s
  | l :: rest =>
    let s := { s with dir.multis := modIf (·.id == m.id) (fun v => { v with left := rest, busy := true }) s.dir.multis }
    lineRequest m.pkt.space l
      { op := m.pkt.opcode, whom := m.whom, pkt := cutLine m.pkt l, lp := m.lp, tc := m.tc, crest := m.crest, multi := some m.id } s

/-- Uncached requests whose line has been answered go on. -/
def runMultis : Nat → State → State
  | 0, s => s
  | n + 1, s =>
    match s.dir.multis.find? (!·.busy) with
    | none => s
    | some m => runMultis n (stepMulti m s)

/-- Fuel for `runMultis`: every line still to start, and every end. -/
def multiFuel (s : State) : Nat := sum (s.dir.multis.map fun m => m.left.length + 2)
def settleDir (s : State) : State := runMultis (multiFuel s) s

/-- An uncached RD, WR or atomic reaches the directory (R161). -/
def uncached (whom : Why) (p : Kmt) (lp tc crest : Nat) (s : State) : State :=
  let (id, s) := newId s
  let n := atomWidth p.opcode p.len
  settleDir { s with dir.multis := s.dir.multis ++ [{ id, whom, pkt := p, lp, tc, crest, left := linesOf p.addr n }] }

/-! ### Events of a line -/

/-- A memory operation of a line's transaction has ended (R157, R160). -/
def lineMemDone (space line status : Nat) (data : List Byte) (s : State) : State :=
  match findTxn s space line with
  | none => s
  | some t =>
    if t.phase ≠ 2 then s else
    let op := t.req.op
    let s :=
      if 0x30 ≤ op ∧ op ≤ 0x32 then
        if status = 0 then grantNow t (some data) s else lineReply t status [] none (closeTx t s)
      else if op = 0x33 then
        if status = 0 then
          let (s, g) := putEnt space line {} false s
          lineReply t 0 [] g s
        else lineReply t status [] none s
      else if t.pois ∧ op = 0x02 then
        lineReply t status [] none (if status = 0 then (putEnt space line {} false s).1 else s)
      else if t.pois then lineReply t 0x20 data none s
      else lineReply t status (if status = 0 ∧ t.old ≠ [] then t.old else if op = 0x02 then [] else data) none s
    settleDir s

/-- The write of a returned line has ended. -/
def lineWbDone (space line : Nat) (s : State) : State := setTxn space line (fun t => { t with wb := false }) s

/-- LINE_TRANSACTION_DONE: the line stops being busy and its next queued request is served (R157). -/
def lineTransactionDone (space line : Nat) (s : State) : State :=
  match findTxn s space line with
  | none => s
  | some t =>
    if t.phase = 4 ∧ !t.wb then
      settleDir (serveLine (t.queue.length + 1) space line t.queue
        { s with dir.txns := s.dir.txns.filter fun v => !(v.space == space && v.line == line) })
    else s

/-- A fill may evict another entry of the slice's cache: which one is the Talik's choice (R156). -/
def cacheFill (space line : Nat) (s : State) : State :=
  let same := s.dir.cache.filter fun k => k % 4 == sliceOf line && k != lkey space line
  let v := freeVal s % (same.length + 1)
  let out := if v = 0 then (if 524288 ≤ same.length then same.head? else none) else same[v - 1]?
  useFree { s with dir.cache := (s.dir.cache.filter fun k => some k != out && k != lkey space line) ++ [lkey space line] }

/-- DIR_ENTRY_FILL: the entry has been read (R156). An uncorrectable error puts both lines of its ECC word into P (Table 15-1). -/
def dirEntryFill (space line : Nat) (ue : Bool) (s : State) : State :=
  match findTxn s space line with
  | none => s
  | some t =>
    if t.phase ≠ 0 then s else
    let s := if ue then
        let other := line ^^^ 256
        let s := fault 5 3 (some (spaceComp s space)) space 0x07000410 0 6 (count 0x07000410 s)
        each [line, other] (fun l s =>
          if (dirEnt s space l).st = 4 then s else (putEnt space l { st := 4 } false (count 0x04000440 s)).1) s
      else s
    settleDir (goLine space line (cacheFill space line s))

/-- Takes a probe as answered: with data, poisoned, or without. -/
def probeAnswered (space line tag : Nat) (data : Option (List Byte)) (pois : Bool) (s : State) : State :=
  match findTxn s space line with
  | none => s
  | some t =>
    match t.probes.find? (·.tag == tag) with
    | none => s
    | some p =>
      let s := setTxn space line (fun v => { v with
        probes := v.probes.filter (·.tag != tag), data := data.or v.data, pois := v.pois || pois }) s
      if (t.probes.filter (·.tag != tag)).isEmpty then resolveLine space line p.op s else s

/-- The transaction and probe of a TAG. -/
def findProbe (s : State) (tag : Nat) : Option (Txn × Probe) :=
  s.dir.txns.findSome? fun t => (t.probes.find? fun p => p.tag == tag && !p.delayed).map fun p => (t, p)

/-- A probe answer is matched by TAG (R158, R160, R167); an answer that matches no probe is discarded and counted. -/
def probeAnswer (p : Kmt) (s : State) : State :=
  match findProbe s p.tag with
  | none => count 0x04000448 s
  | some (t, q) =>
    if p.src ≠ q.ep ∨ p.opcode ≠ q.op then count 0x04000448 s
    else settleDir (probeAnswered t.space t.line p.tag
      (if p.status = 0 ∧ p.len = 64 then some (padTo 64 p.payload) else none) (p.status != 0) s)

/-! ### Belay holds -/

/-- A grant that waited for a hold record goes out (R163). -/
def releaseGrant (slice : Nat) (s : State) : State :=
  match s.dir.txns.find? fun t => t.phase == 3 && sliceOf t.line == slice with
  | none => s
  | some t => grantNow t t.gdata s

/-- BELAY_HOLD_EXPIRY: the hold ends, its delayed probes are sent and its record is freed (R162, R163). -/
def belayHoldExpiry (space line agent : Nat) (s : State) : State :=
  match s.dir.holds.find? fun h => h.space == space && h.line == line && h.agent == agent with
  | none => s
  | some h =>
    let s := atLeast h.till s
    let s := { s with dir.holds := s.dir.holds.erase h }
    let s := match findTxn s space line with
      | none => s
      | some t =>
        each (t.probes.filter fun p => p.delayed && p.agent == agent && !belayed s space line agent p.op) (fun p s =>
          let q := { p with delayed := false, sentAt := s.clock.clk }
          sendProbe space line q false t.gate
            (setTxn space line (fun v => { v with probes := v.probes.map fun r => if r.tag = p.tag then q else r }) s)) s
    settleDir (releaseGrant (sliceOf line) s)

/-! ### Deaths and walks -/

/-- Bytes of directory per Crest of a space's aperture (R149). -/
def aptDirBytes (s : State) (space : Nat) : Nat :=
  sum ((s.dir.regions.filter fun r => r.2.space == space && r.2.mode == 0).map fun r => r.2.size / 16)

/-- ns that a walk of `n` directory bytes takes at a rate in units of 8 GB/s. -/
def walkNs (n rate : Nat) : Nat := ceilDiv n (8 * max 1 rate)

/-- An agent is declared dead (R165, R166). Causes: 0 probe, 1 port down, 2 DIR_AGENT_EVICT, 3 CLEAVE. -/
def agentDeath (apt n cause : Nat) (s : State) : State :=
  let a := agentAt s apt n
  if a.st ≠ 1 then s else
  let space := mgetD s.dir.apts apt 0
  let s := (setAgent apt n { a with st := 2, cause } s).1
  let s := if cause = 3 then s else
    fault 7 (cause + 1) (some (spaceComp s space)) (apt * 65536 + n) 0x04000438 0 3 (count 0x04000438 s)
  let rc : Reclaim := { apt, agent := n, due := s.clock.clk + walkNs (aptDirBytes s space) (bits (reg s 0x04000000) 15 8) }
  let s := { s with dir.reclaims := s.dir.reclaims ++ [rc] }
  -- queued requests of the agent are discarded
  let gone := ((s.dir.txns.filter (·.space == space)).map fun t =>
    (t.queue.filter fun r => isLineOp r.op && r.agent == n).filterMap fun r => match r.whom with
      | .req id => some id
      | _ => none).flatten
  let txns := modIf (fun t : Txn => t.space == space)
    (fun t => { t with queue := t.queue.filter fun r => !(isLineOp r.op && r.agent == n) }) s.dir.txns
  let reqs := (s.xlt.reqs.filter fun r => !(gone.contains r.id)).map fun r => { r with waits := r.waits.filter (!gone.contains ·) }
  let s := { s with dir.txns := txns, xlt.reqs := reqs }
  -- probes that await the agent are taken as answered with LEN 0
  let ps := ((s.dir.txns.filter (·.space == space)).map fun t =>
    (t.probes.filter (·.agent == n)).map fun p => (t.line, p.tag)).flatten
  settleDir (each ps (fun q s => probeAnswered space q.1 q.2 none false s) s)

/-- PROBE_TMO_EXPIRY: the probe is repeated with RTX = 1, or its agent is declared dead (R165). -/
def probeTmoExpiry (tag : Nat) (s : State) : State :=
  match findProbe s tag with
  | none => s
  | some (t, p) =>
    let s := atLeast (p.sentAt + bits (reg s 0x04000000) 31 24 * 1000) s
    if p.rtx then agentDeath ((aptOf s t.space).getD 64) p.agent 0 s
    else
      let q := { p with rtx := true, sentAt := s.clock.clk }
      sendProbe t.space t.line q true t.gate
        (setTxn t.space t.line (fun v => { v with probes := v.probes.map fun r => if r.tag = tag then q else r }) s)

/-- DEAD_US_EXPIRY: the agent's port has stayed out of service for DEAD_US (R165). -/
def deadUsExpiry (apt n : Nat) (s : State) : State :=
  let a := agentAt s apt n
  if a.st ≠ 1 then s else
  match (s.lports.map (·.1)).find? fun l => isLport s l && epValid s l && epId s l == a.ep with
  | none => s
  | some l =>
    let st := (lport s l).st
    if st = 4 ∨ st = 5 ∨ st = 6 then s else
    match (lport s l).downAt with
    | none => s
    | some t => agentDeath apt n 1 (atLeast (t + bits (reg s 0x04000000) 23 16 * 1000) s)

/-- A write of DIR_AGENT_EVICT (Table 5-9). -/
def evictAgent (v : Nat) (s : State) : State :=
  let apt := bits v 21 16
  if bit v 31 ∧ (mget s.dir.apts apt).isSome then agentDeath apt (bits v 8 0) 2 s else s

/-- Lines of the listed entries of a space within a range. -/
def entLines (s : State) (space lo hi : Nat) : List Nat :=
  (s.dir.ents.filter fun e => e.1 / 2 ^ 40 == space && decide (lo ≤ e.1 % 2 ^ 40 * 64) && decide (e.1 % 2 ^ 40 * 64 < hi)).map
    fun e => e.1 % 2 ^ 40 * 64

/-- RECLAIM_WALK_DONE: every entry has been swept and the number becomes FREE (R166). -/
def reclaimWalkDone (apt n : Nat) (s : State) : State :=
  match s.dir.reclaims.find? fun r => r.apt == apt && r.agent == n with
  | none => s
  | some r =>
    let s := atLeast r.due s
    let space := mgetD s.dir.apts apt 0
    let s := each (entLines s space 0 (2 ^ 46)) (fun l s => touch space l s) s
    let s := { s with dir.reclaims := s.dir.reclaims.erase r }
    (setAgent apt n { agentAt s apt n with st := 0 } s).1

/-- Starts a recall walk over a range: PRB_INV to every holder of every entry (R169). -/
def startWalk (space lo hi : Nat) (ext region : Option Nat) (s : State) : State :=
  let (id, s) := newId s
  let n := sum ((s.dir.regions.filter fun r => r.2.space == space && r.2.mode == 0).map fun r =>
    min hi (r.2.base + r.2.size) - max lo r.2.base)
  let w : Walk := { id, space, lo, hi, ext, region, due := s.clock.clk + walkNs (n / 16) (bits (reg s 0x04000000) 7 0) }
  let s := { s with dir.walks := s.dir.walks ++ [w] }
  let ls := (entLines s space lo hi).filter fun l => (dirEnt s space l).st != 4
  settleDir (each ls (fun l s => lineRequest space l { op := 0, whom := .post, pkt := {} } s) s)

/-- Has a walk still a line to recall? -/
def walkBusy (s : State) (w : Walk) : Bool :=
  s.dir.txns.any fun t => t.space == w.space && decide (w.lo ≤ t.line) && decide (t.line < w.hi) &&
    ((t.req.op == 0 && (t.phase != 4 || t.wb)) || t.queue.any (·.op == 0))

/-- Every entry of a walked range is set to I, P included (R169). -/
def clearEnts (space lo hi : Nat) (s : State) : State :=
  each (entLines s space lo hi) (fun l s => (putEnt space l {} false s).1) s

/-! ### Joining and leaving -/

/-- A join word (R153). -/
def joinWord (s : State) (apt n : Nat) : List Byte := le 8 (n + apt * 2 ^ 16 + (reg s 0x04000004 % 2 ^ 14) * 2 ^ 32)

/-- CJOIN (R150): the endpoint's existing number, or a FREE one of the Talik's choice. -/
def joinAgent (r : Req) (s : State) : State :=
  match aptOf s r.pkt.space with
  | none => s
  | some apt =>
    match liveAgent s apt r.pkt.src with
    | some n => endReq r.id 0 (joinWord s apt n) none false false none s
    | none =>
      let n := (anyFree (fun n => (agentAt s apt n).st != 0) (freeVal s) 512).getD 0
      let (s, g) := setAgent apt n { agentAt s apt n with st := 1, ep := r.pkt.src } (useFree s)
      endReq r.id 0 (joinWord s apt n) none false false g s

/-- CLEAVE (R151). -/
def leaveAgent (r : Req) (s : State) : State :=
  let s := match aptOf s r.pkt.space with
    | none => s
    | some apt => match liveAgent s apt r.pkt.src with
      | none => s
      | some n => agentDeath apt n 3 s
  endReq r.id 0 [] none false false none s

/-! ### Publishes -/

/-- CAIRN record (Table 15-4). -/
def cairnRec (s : State) (r : Region) (c : Nat) : LogRec :=
  { rtype := 8, comp := spaceComp s r.space, body := le 2 r.space ++ zeros 6 ++ le 8 r.base ++ le 8 c }

/-- A short command that started earlier ends: its reply goes out and its queue goes on (R344, R422). -/
def endShort (c : CmdRec) (status : Nat) (params : List Byte) (s : State) : State :=
  let s := setQueue c.comp c.queue (fun q => { q with busy := if q.busy = some c then none else q.busy }) s
  saveReply c status 0 params (sendReply c status 0 params s)

/-- A publish ends: PUBLISH by its response, REGION_PUBLISH by its reply (R170). -/
def endPub (q : Pub) (status : Nat) (cairn : Option Nat) (gate : Gate) (s : State) : State :=
  let s := { s with dir.pubs := s.dir.pubs.filter (·.id != q.id) }
  let d := match cairn with
    | some c => le 8 c
    | none => []
  match q.who with
  | .req id => endReq id status d none false false gate s
  | .cmd c => endShort c status d s

/-- Step 4 of R170: the Cairn becomes current and the publish is answered. -/
def makeCairn (q : Pub) (s : State) : State :=
  endPub q 0 (some q.cairn) none
    { s with dir.regions := mmod s.dir.regions q.region fun r => { r with cairn := q.cairn } }

/-- The Cairn is accepted: logged first where mirrored (R173, R425). -/
def acceptCairn (q : Pub) (r : Region) (s : State) : State :=
  let (s, g) := logRec 0 (cairnRec s r q.cairn) s
  match g with
  | none => makeCairn q s
  | some g => hold g (.cairn q.id) { s with dir.pubs := modIf (·.id == q.id) (fun v => { v with stage := 2 }) s.dir.pubs }

/-- Counter of a status that the Cairn word's WR ends with (R170). -/
def statusCtr : Nat → Option Nat
  | 0x12 => some 0x03000418
  | 0x14 => some 0x03000420
  | 0x13 => some 0x03000410
  | 0x21 => some 0x03000450
  | _ => none

/-- The WR of the Cairn word (step 3 of R170). -/
def writeCairn (q : Pub) (r : Region) (s : State) : State :=
  -- endReq counts EXTENT_REVOKED and TIER_ERROR of a request in flight
  let counted := fun st => (q.who matches .req _) && (st == 0x14 || st == 0x21)
  let fail := fun st s => endPub q st none none (match statusCtr st with
    | some c => if counted st then s else count c s
    | none => s)
  let p : Kmt := { opcode := 0x02, comp := spaceComp s r.space, len := 8, src := selfEp s, space := r.space, addr := r.cwAddr
                   payload := le 8 q.cairn }
  if (ringAt s r.space r.cwAddr).isSome then fail 0x13 s
  else match extAt s r.space r.cwAddr with
    | none => match captureAt s r.space r.cwAddr with
      | none => fail 0x12 s
      | some a => (issueHbm a (.write (le 8 q.cairn)) (.cairn q.id) none
          { s with dir.pubs := modIf (·.id == q.id) (fun v => { v with stage := 1 }) s.dir.pubs }).2
    | some (x, e) =>
      if e.draining then fail 0x14 s
      else match memDirect e x p 1 0 [] (.cairn q.id) s with
        | some s => { s with dir.pubs := modIf (·.id == q.id) (fun v => { v with stage := 1 }) s.dir.pubs }
        | none => tierFault 2 p.comp r.space (fail 0x21 s)

/-- Is a publish's flush over? -/
def flushed (s : State) (q : Pub) : Bool :=
  match q.who with
  | .req id => ((findReq s id).map (·.waits.isEmpty)).getD true
  | .cmd _ => true

/-- The publishes of each region are served one at a time in order of arrival (R170). -/
def stepPub (q : Pub) (s : State) : State :=
  if q.stage ≠ 0 ∨ s.dir.pubs.any (fun v => v.region == q.region && decide (v.id < q.id)) ∨ !flushed s q then s
  else match q.who with
    | .req id => if (findReq s id).isNone then { s with dir.pubs := s.dir.pubs.filter (·.id != q.id) } else go s
    | .cmd _ => go s
where
  go (s : State) : State :=
    match mget s.dir.regions q.region with
    | none => endPub q 0x12 none none (count 0x04000458 s)
    | some r =>
      if q.cairn ≤ r.cairn then endPub q 0x31 (some r.cairn) none (count 0x04000460 s)
      else if r.cwEn then writeCairn q r s else acceptCairn q r s

/-- Serves publishes until none can go on. -/
def runPubs : Nat → State → State
  | 0, s => s
  | n + 1, s => runPubs n (each s.dir.pubs stepPub s)

/-- A publish joins its region's queue. -/
def pushPub (region cairn : Nat) (who : PubFrom) (s : State) : State :=
  let (id, s) := newId s
  { s with dir.pubs := s.dir.pubs ++ [{ id, region, cairn, who }] }

/-- A publish joins its region's queue, which is served. -/
def addPub (region cairn : Nat) (who : PubFrom) (s : State) : State :=
  let s := pushPub region cairn who s
  runPubs (s.dir.pubs.length + 1) s

/-- The Cairn word's WR has ended (R170). -/
def cairnWritten (id status : Nat) (s : State) : State :=
  match s.dir.pubs.find? (·.id == id) with
  | none => s
  | some q =>
    let s := match mget s.dir.regions q.region with
      | none => endPub q 0x12 none none (count 0x04000458 s)
      | some r =>
        if status = 0 then acceptCairn q r s
        else endPub q status none none (if status = 0x21 ∧ !(q.who matches .req _) then count 0x03000450 s else s)
    runPubs (s.dir.pubs.length + 1) s

/-- The Partner has answered a Cairn's record (R425). -/
def cairnAnswered (id : Nat) (s : State) : State :=
  match s.dir.pubs.find? (·.id == id) with
  | none => s
  | some q => runPubs (s.dir.pubs.length + 1) (makeCairn q s)

end Sys2Proof.Machine
end

