-- ==== Sys2Proof/Machine/Memory.lean ====
section
/-! DEFINITION. Memory operations of requests and windows, where they go and how they end: combining windows, the tray
tracker, HBM operations, revocation, reads and writes of the block's own units, and mirrored intents. -/

namespace Sys2Proof.Machine

/-- Sends a memory operation of a request or window to its memory: through the directory where it lies in a COHERENT region
(R161), else to the extent. None when no tray port is live. -/
def toMemory (e : Extent) (x : Nat) (p : Kmt) (lp tc crest : Nat) (rs : List Req) (why : Why) (s : State) : Option State :=
  if coherentAt s p.space p.addr then some (uncached why p lp tc crest s) else memDirect e x p tc crest rs why s

/-- The window closes; an atomic window sends its folded atomic (R135). -/
def closeWindow (w : Window) (s : State) : State :=
  if !w.isOpen then s else
  let s := { s with xlt.windows := modIf (·.id == w.id) (fun v => { v with isOpen := false }) s.xlt.windows }
  if isAtomWin w then
    let rs := w.reqs.filterMap (findReq s)
    let ops := winOperands s w
    let operand := (ops.drop 1).foldl (operandFold w.op w.len) (ops.headD [])
    match rs with
    | [] => { s with xlt.windows := s.xlt.windows.filter (·.id != w.id) }
    | r :: _ =>
      match r.ext.bind (mget s.xlt.extents) with
      | none => endWindow w 0x14 (w.reqs.map fun _ => []) none none s
      | some e =>
        match toMemory e (r.ext.getD 0) { r.pkt with payload := operand } r.lp w.tc w.crest rs (.window w.id) s with
        | some s => s
        | none => tierFault 2 r.pkt.comp r.pkt.space (endWindow w 0x21 (w.reqs.map fun _ => []) none none s)
  else s

/-- Closes the windows of a Crest that a WR or another atomic to overlapping bytes meets (R134, R135). -/
def closeOverlap (crest space a n : Nat) (but : Option Nat) (s : State) : State :=
  each (s.xlt.windows.filter fun w => w.isOpen && w.crest == crest && w.space == space && decide (w.addr < a + n) &&
    decide (a < w.addr + w.len) && some w.id != but) closeWindow s

/-! ### Revocation -/

/-- Requests in flight on an extent: of endpoints, of the tracker (TFENCE apart) (R143). -/
def extBusy (s : State) (x : Nat) : Bool :=
  s.xlt.reqs.any (·.ext == some x) || s.xlt.trays.any fun r => r.ext == some x && r.why != .fence x

/-- Operations at the memory units on an HBM extent's pages. -/
def extOps (s : State) (x : Nat) : List HbmOp :=
  match mget s.xlt.extents x with
  | some e => if e.hbm then s.xlt.ops.filter fun o => decide (e.base * pageSize ≤ o.addr) &&
      decide (o.addr < e.base * pageSize + e.size) else []
  | none => []

/-- Removes an extent and frees its charge (R143 step 4, R316). -/
def dropExtent (x : Nat) (s : State) : State :=
  match mget s.xlt.extents x with
  | none => s
  | some e =>
    let k := ((mget s.xlt.spaces e.space).map (·.comp)).getD 0
    let s := { s with xlt.extents := mdel s.xlt.extents x }
    if e.hbm then freeRun k e.base (e.size / pageSize) s
    else setComp k (fun c => { c with trayUse := c.trayUse - e.size / pageSize }) s

/-- The revocation ends: the extent goes and every revoke of it completes with the same status (R143, R144). -/
def finishRevoke (v : Revoke) (failed : Bool) (s : State) : State :=
  let s := dropExtent v.ext { s with xlt.revokes := s.xlt.revokes.filter (·.ext != v.ext) }
  finishAll (.revoke v.ext) (if failed then 0x21 else 0) (le 4 v.normal ++ le 4 v.term) s

/-- TFENCE with ALLCH on every live port of the tray (R143 step 3). -/
def sendFences (x tray : Nat) (s : State) : State :=
  each (trayLive s tray) (fun lp s =>
    let tag := trayTag s tray
    let k := ((mget s.xlt.extents x).map fun e => spaceComp s e.space).getD 0
    let pkt : Kmt := { opcode := 0x22, comp := k, allch := true, src := selfEp s, dst := trayEp s tray, tag }
    let r : TrayReq := { tag, tray, lp, tc := 1, crest := crestOf lp, pkt, ext := some x, sentAt := s.clock.clk, why := .fence x }
    sendTray r false (useFree { s with xlt.trays := s.xlt.trays ++ [r] })) s

/-- One revocation goes on as far as it can (R143). -/
def stepRevoke (v : Revoke) (s : State) : State :=
  if v.walking ∨ extBusy s v.ext ∨ extOps s v.ext ≠ [] then s
  else if v.fencing then
    if s.xlt.trays.any (·.why == .fence v.ext) then s else finishRevoke v v.fenceFailed s
  else match mget s.xlt.extents v.ext with
    | none => finishRevoke v false s
    | some e =>
      if e.hbm then finishRevoke v false s
      else if trayLive s e.tray = [] then finishRevoke v true s
      else sendFences v.ext e.tray
        { s with xlt.revokes := modIf (·.ext == v.ext) (fun v => { v with fencing := true }) s.xlt.revokes }

/-- Does nothing remain in flight (R409 step 5)? Standby copies rest. -/
def quiet (s : State) : Bool :=
  s.xlt.reqs.isEmpty && s.eng.descs.all (·.standby) && s.haul.descs.isEmpty && s.cards.all (·.2.st != 2)

/-- A QUIESCE completes once nothing remains in flight (R409). -/
def settleQuiesce (s : State) : State :=
  if s.cmd.longs.any (·.what == .quiesce) && quiet s then finishAll .quiesce 0 [] { s with dev.drainAt := none } else s

/-- FLUSHes end, publishes go on whose flush is over, revocations go on, and a QUIESCE may be over. -/
def settleXlt (s : State) : State :=
  let s := runPubs (s.dir.pubs.length + 1) (endFlushes s)
  settleQuiesce (each s.xlt.revokes stepRevoke s)

/-! ### Reads and writes that the block issues for its units (R124) -/

/-- Checks of Table 4-3 from TENANT_GONE onward for a generated request; the job is 0xFFFF when no right is needed. -/
def genCheck (s : State) (k job space a n right : Nat) : Nat :=
  if !compLive s k then 0x51
  else match mget s.xlt.spaces space with
    | none => 0x12
    | some sp =>
      if sp.comp ≠ k ∨ sp.shadow then 0x13
      else if job ≠ 0xFFFF ∧ !(((mget s.xlt.jobs job).map fun j => j.comp == k && j.pairs.any fun r => r.1 == space && bit r.2 right).getD false)
        then 0x13
      else match extAt s space a with
        | none => if (ringAt s space a).isSome ∨ (captureAt s space a).isSome then 0 else 0x12
        | some (_, e) => if e.draining then 0x14 else if a + n ≤ e.offset + e.size then 0 else 0x12

/-- Splits a range at 4 KiB blocks, so that each piece is one request (R122). -/
def blocks4k (a : Nat) : Nat → Nat → List (Nat × Nat)
  | 0, _ => []
  | fuel + 1, n =>
    if n = 0 then [] else
    let m := min n (4096 - a % 4096)
    (a, m) :: blocks4k (a + m) fuel (n - m)

/-- Adds a piece to a unit's read. -/
def addPiece (id : Nat) (p : Piece) (s : State) : State :=
  { s with reads := mmod s.reads id fun r => { r with pieces := r.pieces ++ [p] } }

/-- Issues one piece of a unit's read: an HBM piece is read when the unit takes the data, a tray piece goes through the
tracker, and a piece in a COHERENT region goes through the directory (R161). -/
def issuePiece (id k space a n tc crest : Nat) (s : State) : State :=
  match ringAt s space a with
  | some r => addPiece id { hbm := false, addr := a, len := n, got := some (0, ringBytes r (a - r.offset) n) } s
  | none =>
    match extAt s space a with
    | none => addPiece id { hbm := true, addr := (captureAt s space a).getD 0, len := n } s
    | some (x, e) =>
      if coherentAt s space a then
        let (i, s) := newId s
        let p : Kmt := { opcode := 0x01, comp := k, len := n, src := selfEp s, tag := 2 ^ 24 + i, space, addr := a }
        uncached (.unit id) p 0x3FF tc crest (addPiece id { hbm := false, addr := a, len := n, tag := p.tag } s)
      else if e.hbm then addPiece id { hbm := true, addr := extAddr e a, len := n } s
      else match issueTray e.tray (extAddr e a) { opcode := 0x01, comp := k, len := n } tc crest (some x) (.unit id) none s with
        | some (tag, s) => addPiece id { hbm := false, addr := a, len := n, tag } s
        | none => addPiece id { hbm := false, addr := a, len := n, got := some (0x21, []) }
            (tierFault 2 k space (count 0x03000450 s))

/-- Issues a read for a unit or card (R124): its identifier. -/
def issueRead (k job space a n tc crest : Nat) (s : State) : Nat × State :=
  let (id, s) := newId s
  let bs := blocks4k a (n / 4096 + 2) n
  let bad := bs.findSome? fun b =>
    let st := genCheck s k job space b.1 b.2 2
    if st = 0 then none else some st
  let s := { s with reads := mset s.reads id { comp := k, pieces := [], refused := bad } }
  (id, if bad.isSome then s else bs.foldl (fun s b => issuePiece id k space b.1 b.2 tc crest s) s)

/-- Does a write that waits for the Partner overlap the bytes (R425)? -/
def gatedWrite (s : State) (a n : Nat) : Bool :=
  s.xlt.ops.any fun o => !gateOpen s o.gate && decide (o.addr < a + n) && decide (a < o.addr + opLen o.op)

/-- What a unit's read has come to: none while a tray piece is missing, else status and bytes. -/
def readDone (s : State) (id : Nat) : Option (Nat × List Byte) :=
  match mget s.reads id with
  | none => none
  | some r =>
    match r.refused with
    | some st => some (st, [])
    | none =>
      if r.pieces.any fun p => (!p.hbm && p.got.isNone) || (p.hbm && gatedWrite s p.addr p.len) then none else
      let got := r.pieces.map fun p =>
        if p.hbm then (if poisoned s p.addr p.len then (0x20, []) else (0, memRead s.mem p.addr p.len)) else p.got.getD (0x60, [])
      match got.find? (·.1 != 0) with
      | some (st, _) => some (st, [])
      | none => some (0, (got.map (·.2)).flatten)

/-- Takes a finished read away, counting the bytes moved from HBM. -/
def dropRead (id : Nat) (s : State) : State :=
  match mget s.reads id with
  | none => s
  | some r => each (r.pieces.filter (·.hbm)) (fun p => hbmMoved r.comp p.addr p.len) { s with reads := mdel s.reads id }

/-- Writes bytes at an offset of a space on the block's own account, as requests that nothing waits for (R124). -/
def genWrite (k space a : Nat) (bs : List Byte) (crest : Nat) (s : State) : State :=
  (blocks4k a (bs.length / 4096 + 2) bs.length).foldl (fun s b =>
    match extAt s space b.1 with
    | none => s
    | some (x, e) =>
      let p : Kmt := { opcode := 0x02, comp := k, len := b.2, src := selfEp s, space, addr := b.1, payload := slice bs (b.1 - a) b.2 }
      (toMemory e x p 0x3FF 4 crest [] .post s).getD (tierFault 2 k space (count 0x03000450 s))) s

/-! ### How memory operations end -/

/-- The Crest whose reply cache serves an endpoint: that of the port to which it is bound, or a stated one. -/
def srcCrest (s : State) (src other : Nat) : Nat := ((boundPort s src).map crestOf).getD other

/-- What the Partner's TRI intent becomes once the tray has answered: each requester's reply-cache entry (Table 15-4). -/
def closeIntent (lane lsn status : Nat) (old : List Byte) (s : State) : State :=
  match s.flt.intents.find? fun i => i.lane == lane && i.lsn == lsn && !i.dir with
  | none => s
  | some i =>
    let s := { s with flt.intents := s.flt.intents.filter (· != i) }
    (triOlds i.body status (leVal (old.take (atomWidth (byteAt i.body 8) (fld i.body 10 2))))).foldl (fun s q =>
      cachePut { crest := srcCrest s (fld q.1 0 4) lane, src := fld q.1 0 4, tag := fld q.1 4 4, status, data := q.2, at_ := s.clock.clk } s) s

/-- A finished memory operation goes to whom it was made for. -/
def memDone (why : Why) (tag status : Nat) (data : List Byte) (m : Option Nat) (gate : Gate) (s : State) : State :=
  match why with
  | .req _ => giveTo why tag status data m gate s
  | .window _ => giveTo why tag status data m gate s
  | .unit _ => giveTo why tag status data m gate s
  | .post => giveTo why tag status data m gate s
  | .fence x => { s with xlt.revokes := modIf (·.ext == x) (fun v => { v with fenceFailed := v.fenceFailed || status != 0 }) s.xlt.revokes }
  | .cairn id => cairnWritten id status s
  | .line space line => lineMemDone space line status data s
  | .lineWb space line => lineWbDone space line s
  | .intent lane lsn => closeIntent lane lsn status data s

/-- DONE record (Table 15-4). -/
def doneRec (k lsn status : Nat) (old : List Byte) : LogRec :=
  { rtype := 5, comp := k, body := le 8 lsn ++ le 1 status ++ zeros 7 ++ padTo 16 old }

/-- A tray request ends: its DONE record is logged where its intent was (R425, Table 15-4). -/
def trayEnd (r : TrayReq) (status : Nat) (data : List Byte) (m : Option Nat) (s : State) : State :=
  let s := { s with xlt.trays := s.xlt.trays.filter (· != r) }
  let (s, g) := match r.intent with
    | some (c, n) =>
      let rs := match r.why with
        | .req id => (findReq s id).toList
        | .window id => ((s.xlt.windows.find? (·.id == id)).map fun w => w.reqs.filterMap (findReq s)).getD []
        | _ => []
      let tri := (triRec s r.tray r.pkt.addr r.tag r.pkt.chan r.pkt rs).body
      logUpdate c (doneRec r.pkt.comp n status data) tri status (leVal (data.take (atomWidth r.pkt.opcode r.pkt.len))) s
    | none => (s, none)
  settleXlt (memDone r.why r.tag status data m g s)

/-- A tray request ends with TIER_ERROR (R130): its record's cause is a timeout or lost port, or no live port left. -/
def trayFail (r : TrayReq) (s : State) : State :=
  let space := ((r.ext.bind (mget s.xlt.extents)).map (·.space)).getD 0
  tierFault (if trayLive s r.tray = [] then 2 else 1) r.pkt.comp space (trayEnd r 0x21 [] none s)

/-- Reissues a tray request once, with RTX = 1 and its TAG, to the port that R129 now gives; without one it ends (R130). -/
def reissue (r : TrayReq) (s : State) : State :=
  let s := count 0x03000448 s
  match trayPick s r.tray r.pkt.addr with
  | none => trayFail r s
  | some (lp, _) =>
    let r' := { r with lp, reissued := true, sentAt := s.clock.clk }
    sendTray r' true { s with xlt.trays := modIf (· == r) (fun _ => r') s.xlt.trays }

/-- A port leaves the live set: the tray requests it carries are reissued, or end if they had been (R130). -/
def portLost (lp : Nat) (s : State) : State :=
  each (s.xlt.trays.filter fun r => r.lp == lp && r.sent && match r.why with
    | .fence _ => false
    | _ => true) (fun r s => if r.reissued then trayFail r s else reissue r s) s

/-- DRAIN_US of XLT_CTL in ns. -/
def drainNs (s : State) : Nat := bits (reg s 0x03000000) 23 8 * 1000
/-- TRAY_TMO of XLT_CTL in ns. -/
def trayTmoNs (s : State) : Nat := bits (reg s 0x03000000) 7 0 * 1000

/-- The drain timeout of a revocation falls due by an instant. -/
def drainDue (s : State) (x t : Nat) : Bool := s.xlt.revokes.any fun v => v.ext == x && !v.fencing && decide (v.at_ + drainNs s ≤ t)

/-- Number of a tracker entry: its TAG, and 2^24 more for a request reissued for the lost Partner (R432). -/
def trayKey (r : TrayReq) : Nat :=
  match r.why with
  | .intent _ _ => 2 ^ 24 + r.tag
  | _ => r.tag

/-- TRAY_TMO_EXPIRY (R130). A TFENCE unanswered for TRAY_TMO fails its revoke (R143). A first timeout that falls together with
the drain timeout is not acted on: the drain timeout decides (R143). -/
def trayTmoExpiry (tag : Nat) (s : State) : State :=
  match s.xlt.trays.find? fun r => trayKey r == tag && r.sent with
  | none => s
  | some r =>
    let t := r.sentAt + trayTmoNs s
    if !r.reissued && ((r.ext.map fun x => drainDue s x t).getD false) then s else
    let s := atLeast t s
    match r.why with
    | .fence _ => trayEnd r 0x21 [] none s
    | _ => if r.reissued then trayFail r s else reissue r s

/-- A tray's response (R130, R132): OK and POISONED are its only statuses that stand; any other is TIER_ERROR. -/
def trayAnswer (p : Kmt) (s : State) : State :=
  match s.xlt.trays.find? fun r => r.tag == p.tag && r.sent && r.pkt.opcode == p.opcode && r.pkt.dst == p.src && r.pkt.src == p.dst with
  | none => count 0x03000458 s
  | some r =>
    if p.status = 0 ∨ p.status = 0x20 then trayEnd r p.status (p.payload.take p.len) (some p.load) s
    else
      let space := ((r.ext.bind (mget s.xlt.extents)).map (·.space)).getD 0
      tierFault 3 r.pkt.comp space (trayEnd r 0x21 [] (some p.load) s)

/-- Must an operation wait for an earlier one on the same bytes, or for the Partner (R425)? -/
def opBlocked (s : State) (o : HbmOp) : Bool :=
  !gateOpen s o.gate || s.xlt.ops.any fun q => decide (q.id < o.id) && decide (q.addr < o.addr + opLen o.op) &&
    decide (o.addr < q.addr + opLen q.op)

/-- ECC words of an operation among those found uncorrectable. -/
def ueWords (o : HbmOp) (ue : List Nat) : List Nat :=
  ue.filter fun w => decide (w * 32 < o.addr + opLen o.op) && decide (o.addr < w * 32 + 32)

/-- Uncorrectable errors found in HBM words are counted, reported and poison their words (R505, CLASS 0x05). -/
def hbmUe (ws : List Nat) (s : State) : State :=
  each ws (fun w s =>
    let k := (mget s.pages (w * 32 / pageSize)).map (·.comp)
    fault 5 2 k 0 0x07000410 0 6 (count 0x07000410 (poisonAt (w * 32) s))) s

/-- HBM_RESPONSE: the memory units perform an operation (R116). -/
def hbmFinish (id : Nat) (ue : List Nat) (s : State) : State :=
  match s.xlt.ops.find? (·.id == id) with
  | none => s
  | some o =>
    if opBlocked s o then s else
    let s := { hbmUe (ueWords o ue) s with xlt.ops := s.xlt.ops.filter (·.id != id) }
    let (st, d, s) := perform o s
    let k := ((mget s.pages (o.addr / pageSize)).map (·.comp)).getD 0
    settleXlt (memDone o.why 0 st d none none (hbmMoved k o.addr (opLen o.op) s))

/-- Windows that no request waits for any more go. -/
def dropWindows (s : State) : State :=
  { s with xlt.windows := s.xlt.windows.filter fun w => w.reqs.any fun i => (findReq s i).isSome }

/-- Ends every request in flight that `p` names with a status, and every memory operation of theirs: a late tray response is
then discarded (R143, R409). -/
def endInFlight (p : Req → Bool) (tray : TrayReq → Bool) (ops : List HbmOp) (status : Nat) (s : State) : State :=
  let s := each (s.xlt.reqs.filter p) (fun r => endReq r.id status [] none false true none) s
  let ts := s.xlt.trays.filter tray
  let s := { s with xlt.trays := s.xlt.trays.filter fun r => !(tray r), xlt.ops := s.xlt.ops.filter (!ops.contains ·) }
  let s := each ts (fun r => memDone r.why r.tag status [] none none) s
  let s := each ops (fun o => memDone o.why 0 status [] none none) s
  dropWindows s

/-- Reads that the block itself makes through the directory of an extent end with EXTENT_REVOKED (R124, R143). -/
def endUnitReads (x : Nat) (s : State) : State :=
  match mget s.xlt.extents x with
  | none => s
  | some e =>
    each (s.dir.multis.filter fun m => (m.whom matches .unit _) && m.pkt.space == e.space && decide (m.pkt.addr < e.offset + e.size) &&
        decide (e.offset < m.pkt.addr + m.pkt.len))
      (fun m s => giveTo m.whom m.pkt.tag 0x14 [] none none { s with dir.multis := s.dir.multis.filter (·.id != m.id) }) s

/-- DRAIN_TIMEOUT (R143): what is still in flight on the extent ends with EXTENT_REVOKED. Requests whose reissue times out at
the same instant end by R130 first. -/
def drainTimeout (x : Nat) (s : State) : State :=
  match s.xlt.revokes.find? (·.ext == x) with
  | none => s
  | some v =>
    if v.fencing then s else
    let due := v.at_ + drainNs s
    let s := atLeast due s
    let s := each (s.xlt.trays.filter fun r => r.ext == some x && r.reissued && decide (r.sentAt + trayTmoNs s ≤ due)) trayFail s
    settleXlt (endUnitReads x (endInFlight (·.ext == some x) (fun r => r.ext == some x && r.why != .fence x) (extOps s x) 0x14 s))

/-- EXTENT_REVOKE moves the extent to DRAINING (R143); under a COHERENT region the recall walk starts (R169). -/
def markRevoke (x : Nat) (s : State) : State :=
  match mget s.xlt.extents x with
  | none => s
  | some e =>
    let s := { s with xlt.extents := mset s.xlt.extents x { e with draining := true } }
    let coh := s.dir.regions.any fun r => r.2.mode == 0 && r.2.space == e.space && decide (r.2.base < e.offset + e.size) &&
      decide (e.offset < r.2.base + r.2.size)
    let s := { s with xlt.revokes := s.xlt.revokes ++ [{ ext := x, at_ := s.clock.clk, walking := coh }] }
    if coh then startWalk e.space e.offset (e.offset + e.size) (some x) none s else s

/-- A revocation begins and goes on as far as it can (R143). -/
def beginRevoke (x : Nat) (s : State) : State := settleXlt (markRevoke x s)

/-- A region goes: its directory pages are freed, and the aperture with its last COHERENT region (R148, R169). -/
def dropRegion (i : Nat) (s : State) : State :=
  match mget s.dir.regions i with
  | none => s
  | some r =>
    let k := spaceComp s r.space
    let s := { s with dir.regions := mdel s.dir.regions i }
    let n := ceilDiv (r.size / 16) pageSize
    let s := each r.dirRuns (fun a => freeRun k a n) s
    let s := if r.mode = 0 ∧ !(s.dir.regions.any fun q => q.2.space == r.space && q.2.mode == 0) then
        match aptOf s r.space with
        | none => s
        | some a => { s with
            dir.apts := mdel s.dir.apts a
            dir.agents := s.dir.agents.filter fun g => g.1 / 512 != a
            dir.reclaims := s.dir.reclaims.filter (·.apt != a)
            dir.holds := s.dir.holds.filter (·.space != r.space) }
      else s
    runPubs (s.dir.pubs.length + 1) s

/-- A REGION_REMOVE ends: the region goes, and the completion carries its index and aperture (R352). -/
def endRegion (i : Nat) (s : State) : State :=
  let apt := ((mget s.dir.regions i).map fun r => if r.mode = 0 then r.apt else 0).getD 0
  finishAll (.recall i) 0 (le 2 i ++ le 1 apt ++ zeros 5) (dropRegion i s)

/-- RECALL_WALK_DONE: the walk's last recall has ended; the entries are set to I (R169). -/
def recallWalkDone (id : Nat) (s : State) : State :=
  match s.dir.walks.find? (·.id == id) with
  | none => s
  | some w =>
    if walkBusy s w then s else
    let s := atLeast w.due s
    let s := clearEnts w.space w.lo w.hi { s with dir.walks := s.dir.walks.filter (·.id != id) }
    let s := match w.region with
      | some i => endRegion i s
      | none => s
    match w.ext with
    | some x => settleXlt { s with xlt.revokes := modIf (·.ext == x) (fun v => { v with walking := false }) s.xlt.revokes }
    | none => s

end Sys2Proof.Machine
end

