-- ==== Sys2Proof/Machine/Ports.lean ====
section
/-! DEFINITION. Ports, lanes and the KMT link layer (chapter 2): link start, acknowledgement and replay, lane degrade and
restore, DOWN and flap damping, re-homing, MACsec packet numbers. -/

namespace Sys2Proof.Machine

/-! ### Frames of the link layer -/

/-- Fields of PORT_KMT_CFG, PORT_DEG_CFG and PORT_LINK_CFG of a logical port's physical port. -/
def kmtCfg (s : State) (lp : Nat) : Nat := reg s (portReg (lp / 8) 0x10)
def degCfg (s : State) (lp : Nat) : Nat := reg s (portReg (lp / 8) 0x14)
def linkCfg (s : State) (lp : Nat) : Nat := reg s (portReg (lp / 8) 0x18)
def etypeOf (s : State) (lp : Nat) : Nat := bits (kmtCfg s lp) 31 16

/-- Counter of a port (Table 2-20). -/
def portCtr (lp off : Nat) : Nat := portReg (lp / 8) off
def rxBad (lp : Nat) (s : State) : State := count (portCtr lp 0x100) s

/-- Logical ports of a physical port (Table 2-3). -/
def lportsOf (s : State) (p : Nat) : List Nat := ((List.range 8).map (8 * p + ·)).filter (isLport s)

/-- Link header of Table 2-6 with its HCRC (R47, R48). -/
def linkHeader (subtype tc plen reason : Nat) (av : Bool) (seq ackseq : Nat) : List Byte :=
  let h := le 4 (reason * 2 ^ 30 + plen * 2 ^ 16 + 0x1000 + b2n av * 2 ^ 11 + tc * 2 ^ 8 + subtype) ++ le 4 seq ++ le 4 ackseq
  h ++ le 4 (crc32c h)

/-- A frame from the destination MAC on, padded to 60 bytes before the FCS (R47, R49). -/
def frameOf (s : State) (lp : Nat) (rest : List Byte) : List Byte :=
  let e := etypeOf s lp
  let b := padTo 12 (Config.linkMacs lp) ++ le 1 (e / 256) ++ le 1 (e % 256) ++ rest
  if b.length < 60 then padTo 60 b else b

/-- Body of a DATA frame as blocks of 256 bytes with their CRC-32C (R49). -/
def blocksOf : Nat → List Byte → List Byte
  | 0, _ => []
  | n + 1, b => let d := padTo 256 (b.take 256); d ++ le 4 (crc32c d) ++ blocksOf n (b.drop 256)

/-- A body of an ACK, NAK or LINKCTL frame with its CRC-32C (R49). -/
def bodyCrc (b : List Byte) : List Byte := b ++ le 4 (crc32c b)

/-- EtherType of a received frame (network order). -/
def frameEtype (f : List Byte) : Nat := byteAt f 12 * 256 + byteAt f 13

/-- Header of a received KMT frame. -/
structure LinkHdr where
  reason : Nat
  plen : Nat
  ver : Nat
  av : Bool
  tc : Nat
  subtype : Nat
  seq : Nat
  ackseq : Nat
  hcrcOk : Bool
  deriving DecidableEq, Repr

/-- The link header that a frame spells. -/
def linkHdr (f : List Byte) : LinkHdr :=
  let h0 := fld f 14 4
  { reason := bits h0 31 30, plen := bits h0 29 16, ver := bits h0 15 12, av := bit h0 11, tc := bits h0 10 8
    subtype := bits h0 7 0, seq := fld f 18 4, ackseq := fld f 22 4, hcrcOk := fld f 26 4 == crc32c (slice f 14 12) }

/-- A correct ACK, NAK or LINKCTL frame of a port's EtherType with a body of `n` bytes (R49). -/
def bodyOk (s : State) (lp n sub : Nat) (f : List Byte) : Bool :=
  let h := linkHdr f
  frameEtype f == etypeOf s lp && h.hcrcOk && h.ver == 1 && h.subtype == sub && h.plen == n &&
    fld f (30 + n) 4 == crc32c (slice f 30 n)

/-- Signed 32-bit difference of sequence numbers (R54). -/
def seqDiff (a b : Nat) : Int := sgn 32 ((a + 2 ^ 32 - b % 2 ^ 32) % 2 ^ 32)

/-- May link events act on this KMT port? -/
def kmtPort (s : State) (lp : Nat) : Bool := running s && isLport s lp && isKmt s lp && modeOf s lp != 0

/-! ### Packets of a frame -/

/-- Payload length of a packet (R111, Tables 4-2 and 5-1): LEN of a response, and of a request that carries a payload. -/
def payloadLen (p : Kmt) : Nat :=
  if !p.rsp && [0x01, 0x20, 0x22, 0x30, 0x31, 0x32, 0x34, 0x35, 0x36, 0x38, 0x39, 0x3A, 0x41].contains p.opcode then 0 else p.len

/-- PLEN of a DATA frame: its body, or for a tail-marked one the length of the packet that it began with (R97, R99). -/
def plenOf (poison : Bool) (body : List Byte) : Nat :=
  if poison then 32 + ceilDiv (payloadLen (kmtOf body)) 8 * 8 else body.length

/-- A dropped frame's record at the drop point (R106). A KMT frame that no link has numbered has no SEQ (log entry 206). -/
def captureDrop (lp ilp tc : Nat) (c : Cargo) (k : Nat) (poison mcast : Bool) (drop : Nat) (s : State) : State :=
  if s.sw.capture = none then s else
  match c with
  | .kmt p =>
    let b := kmtBytes p
    let f := frameOf s lp (linkHeader 1 tc b.length 0 true (freeVal s % 2 ^ 32) (lport s lp).next ++ blocksOf (ceilDiv b.length 256) b)
    useFree (captureAtPoint 2 f ilp 0x3FF tc k poison mcast drop (f.length + 4) s)
  | .plain f => captureAtPoint 2 f.bytes ilp 0x3FF tc k poison mcast drop f.len s
  | .reply _ => s

/-! ### Acknowledgement and credit -/

/-- Sends an ACK: body CREDIT_LIMIT of each class, AV and ACKSEQ = NEXT (R51, R56). -/
def sendAck (lp : Nat) (s : State) : State :=
  let l := lport s lp
  let f := frameOf s lp (linkHeader 2 0 32 0 true 0 l.next ++ bodyCrc ((l.myLimit.map (le 4)).flatten))
  emit (.link lp f) (setLport lp (fun l =>
    { l with unacked := 0, freed := List.replicate 8 0, lastTx := s.clock.clk }) s)

/-- Sends a NAK with a reason, at most one for the same ACKSEQ in 2 µs (R57). -/
def sendNak (lp reason : Nat) (s : State) : State :=
  let l := lport s lp
  let blocked := match l.nak with
    | some (a, _, t) => a == l.next && decide (s.clock.clk < t + 2000)
    | none => false
  if blocked then s else
  let f := frameOf s lp (linkHeader 3 0 32 reason true 0 l.next ++ bodyCrc ((l.myLimit.map (le 4)).flatten))
  emit (.link lp f) (count (portCtr lp 0x110) (setLport lp (fun l =>
    { l with nak := some (l.next, reason, s.clock.clk), unacked := 0, freed := List.replicate 8 0, lastTx := s.clock.clk }) s))

/-- Adds to one element of an eight-element list, modulo 2^32. -/
def addAt (l : List Nat) (i n : Nat) : List Nat := l.set i ((l.getD i 0 + n) % 2 ^ 32)

/-- Cells of a class are freed: CREDIT_LIMIT grows, and 32 or more call for a credit update (R51, R56). -/
def freeCredit (lp tc n : Nat) (s : State) : State :=
  if n = 0 ∨ lp = 0x3FF ∨ !isKmt s lp then s else
  let s := setLport lp (fun l => { l with myLimit := addAt l.myLimit tc n, freed := addAt l.freed tc n }) s
  if live s lp ∧ 32 ≤ (lport s lp).freed.getD tc 0 then sendAck lp s else s

/-- Frames before ACKSEQ are acknowledged and leave the replay buffer (R58). -/
def ackUpTo (lp ackseq : Nat) (s : State) : State :=
  setLport lp (fun l =>
    let keep := l.replay.filter fun f => decide (0 ≤ seqDiff f.seq ackseq)
    if seqDiff l.txSeq ackseq < 0 then l else
    { l with
      replay := keep
      replayQ := l.replayQ.filter fun q => decide (0 ≤ seqDiff q ackseq)
      replayRun := if (l.replayFrom.map fun r => decide (seqDiff r ackseq < 0)).getD false then 0 else l.replayRun }) s

/-- Takes the CREDIT_LIMIT words of an ACK or NAK body (R51). -/
def takeLimits (lp : Nat) (f : List Byte) (s : State) : State :=
  setLport lp (fun l => { l with peerLimit := (List.range 8).map fun i => fld f (30 + 4 * i) 4 }) s

/-! ### Penalty and DOWN -/

/-- Decayed penalty now: halved every HALF_S seconds; between two half-lives a free value inside the bracket and no higher than
the last one computed (R72, log entry 11). -/
def penaltyNow (s : State) (lp : Nat) : Nat :=
  let l := lport s lp
  let h := bits (linkCfg s lp) 30 24 * 1000000000
  if h = 0 then l.penalty else
  let dt := s.clock.clk - l.penaltyAt
  let k := dt / h
  let hi := min l.penNow (l.penalty / 2 ^ k)
  let lo := l.penalty / 2 ^ (k + 1)
  if dt % h = 0 then l.penalty / 2 ^ k else if hi ≤ lo then hi else lo + freeVal s % (hi - lo + 1)

/-- Adds a flap to the penalty, capped at 12,000, and damps the port when it exceeds SUPPRESS (R72). -/
def addPenalty (lp : Nat) (s : State) : State :=
  if bit (linkCfg s lp) 31 then
    let v := min 12000 (penaltyNow s lp + 1000)
    useFree (setLport lp (fun l =>
      { l with penalty := v, penNow := v, penaltyAt := s.clock.clk
               st := if bits (linkCfg s lp) 23 16 * 250 < v then 7 else l.st }) s)
  else s

/-- Drops what is queued for a logical port, counting each frame at `ctrA` (0: no counter); a re-home discard is recorded (R106). -/
def dropQueued (lp ctrA : Nat) (s : State) : State :=
  let hit := fun (f : VFrame) => f.legs.any (·.lp == lp)
  let n := (s.sw.voq.filter hit).length + (s.sw.egress.filter (·.lp == lp)).length
  let gone := s.sw.voq.filter fun f => f.legs.all (·.lp == lp) && !f.legs.isEmpty
  let s := if ctrA ≠ portCtr lp 0x138 then s else
    each (s.sw.egress.filter (·.lp == lp)) (fun f s => captureDrop lp f.ilp f.tc f.cargo f.comp f.poison f.mcast 5 s)
      (each (s.sw.voq.filter hit) (fun f s => captureDrop lp f.ilp f.tc f.cargo f.comp f.poison f.mcast 5 s) s)
  let s := { s with sw.voq := (s.sw.voq.map fun f => { f with legs := f.legs.filter (·.lp != lp) }).filter (!·.legs.isEmpty)
                    sw.egress := s.sw.egress.filter (·.lp != lp) }
  let s := each gone (fun f => freeCredit f.ilp f.tc f.credit) s
  if ctrA = 0 then s else countN ctrA n s

/-- The KMT link state of a port is given up; configuration, counters, penalty and secure associations stay. -/
def clearLink (l : LPort) (now st : Nat) : LPort :=
  { l with st, next := 0, txSeq := 0, sent := List.replicate 8 0, replay := [], replayQ := [], replayFrom := none, replayRun := 0
           nak := none, unacked := 0, freed := List.replicate 8 0, gotInit := false, gotAck := false, lanes := 0, failed := 0
           good := 0, move := none, rehoming := false, paused := [], xoff := 0
           downAt := if l.downAt.isSome then l.downAt else some now }

/-- A logical port goes DOWN (R71): link state is given up, frames queued for it are dropped, tray requests on it are reissued,
and unless a retrain causes it (`cause` 0) a flap, a penalty and a LINK record follow (R72, Table 15-1). -/
def goDown (lp cause : Nat) (s : State) : State :=
  let s := setLport lp (fun l => clearLink l s.clock.clk 1) s
  let s := portLost lp (dropQueued lp 0 s)
  if cause = 0 then s else fault 2 cause none lp (portCtr lp 0x130) 0 0 (addPenalty lp (count (portCtr lp 0x130) s))

/-- Every fabric lane electrically idle: every logical port to a state without link (R417, R458). -/
def idleLanes (st : Nat) (s : State) : State :=
  each (s.lports.filter fun l => l.2.st != 0) (fun l s => setLport l.1 (fun p => clearLink p s.clock.clk st) s) s

/-- The Talik stops itself (R417): lanes idle, heartbeats end, a SELF_STOP record, FLT_STATUS.STOPPED. -/
def selfStop (cause : Nat) (s : State) : State :=
  if s.flt.stopped then s else
  let s := fault 9 cause none 0 0 s.sec.nodeId 9 s
  idleLanes 1 { s with flt.stopped := true }

/-! ### Link start -/

/-- INIT_LIMIT[n] that a logical port announces (R94). -/
def initLimit (s : State) (lp n : Nat) : Nat := carveCredit s n / max 1 (lportsOf s (lp / 8)).length

/-- Replay-buffer share (R58). -/
def replayShare (s : State) (lp : Nat) : Nat := 1048576 / max 1 (lportsOf s (lp / 8)).length

/-- LINKCTL body of this Talik's INIT (Table 2-7). -/
def initBody (s : State) (lp : Nat) : List Byte :=
  [1, 1] ++ le 2 3 ++ le 4 (lport s lp).epoch ++ le 8 s.sec.nodeId ++ le 4 (replayShare s lp) ++ zeros 4 ++
    ((List.range 8).map fun n => le 4 (initLimit s lp n)).flatten ++ zeros 8

/-- Sends a LINKCTL frame. -/
def sendCtl (lp : Nat) (body : List Byte) (s : State) : State :=
  emit (.link lp (frameOf s lp (linkHeader 4 0 64 0 false 0 0 ++ bodyCrc body)))
    (setLport lp (fun l => { l with lastTx := s.clock.clk }) s)

/-- Sends INIT. -/
def sendInit (lp : Nat) (s : State) : State :=
  sendCtl lp (initBody s lp) (setLport lp (fun l => { l with initAt := s.clock.clk }) s)

/-- ACTIVE at full width, else DEGRADED. -/
def linkedState (s : State) (lp : Nat) (lanes : Nat) : Nat := if lanes = startLanes s lp then 4 else 5

/-- A port that has received an INIT and an INIT_ACK for its own becomes ACTIVE (R61), continuing a re-home (R74). -/
def tryActive (lp : Nat) (s : State) : State :=
  let l := lport s lp
  if !(l.gotInit && l.gotAck && (l.st == 3 || l.st == 6)) then s else
  let same := l.inNode == l.peerNode
  let cont := l.rehoming && same && bit l.inCaps 1
  let s := if l.rehoming && !same then count (portCtr lp 0x140) s else s
  let fresh : LPort := { l with
    st := linkedState s lp l.lanes, peerNode := l.inNode, peerCaps := l.inCaps, rehoming := false
    downAt := none, lastRx := s.clock.clk, nak := none, unacked := 0, freed := List.replicate 8 0 }
  setLport lp (fun _ =>
    if cont then { fresh with replayQ := l.replay.map (·.seq) }
    else { fresh with next := 0, txSeq := 0, sent := List.replicate 8 0, peerLimit := l.inLimit
                      myLimit := (List.range 8).map (initLimit s lp), replay := [], replayQ := [], replayFrom := none
                      replayRun := 0 }) s

/-- PCS_LOCK (R61): a KMT port enters INIT and sends INIT; a PLAIN port carries traffic at once. -/
def pcsLock (lp : Nat) (s : State) : State :=
  let l := lport s lp
  if !(running s && isLport s lp && modeOf s lp != 0 && (l.st == 1 || l.st == 2 || l.st == 6)) then s else
  let lanes := startLanes s lp
  if isKmt s lp then
    sendInit lp (setLport lp (fun l =>
      { l with st := if l.st = 6 then 6 else 3, rehoming := l.st == 6, lockAt := s.clock.clk, gotInit := false, gotAck := false
               epoch := l.epoch + 1, lanes, failed := 0, good := 0, move := none }) s)
  else setLport lp (fun l => { l with st := 4, lanes, failed := 0, good := 0, downAt := none, lastRx := s.clock.clk }) s

/-- INIT_TIMER (R61): INIT again every 1 µs, or every 1 ms in NO_KMT_PEER. -/
def initTimer (lp : Nat) (s : State) : State :=
  let l := lport s lp
  if kmtPort s lp && (l.st == 3 || l.st == 8 || (l.st == 6 && l.rehoming)) then
    sendInit lp (atLeast (l.initAt + if l.st = 8 then 1000000 else 1000) s)
  else s

/-- NO_KMT_PEER_TIMEOUT (R61). -/
def noKmtPeerTimeout (lp : Nat) (s : State) : State :=
  let l := lport s lp
  if kmtPort s lp && l.st == 3 && !l.gotInit then
    let s := atLeast (l.lockAt + 1000000) s
    setLport lp (fun l => { l with st := 8 }) s
  else s

/-- May a frame arrive on the port? -/
def rxOpen (s : State) (lp : Nat) : Bool :=
  let l := lport s lp
  kmtPort s lp && (live s lp || l.st == 3 || l.st == 8 || (l.st == 6 && l.rehoming))

/-- A frame of any kind has arrived (R71). -/
def heard (lp : Nat) (s : State) : State := setLport lp (fun l => { l with lastRx := s.clock.clk }) s

/-- LINKCTL_INIT (R53, R61, R74): a valid INIT is answered and may make the port ACTIVE. -/
def linkctlInit (lp : Nat) (f : List Byte) (s : State) : State :=
  if !rxOpen s lp then s else
  let s := heard lp s
  let limits := (List.range 8).map fun n => fld f (54 + 4 * n) 4
  if !(bodyOk s lp 64 4 f && byteAt f 30 == 1 && byteAt f 31 == 1 && limits.all (32 ≤ ·)) then rxBad lp s else
  let s := if live s lp then s else
    setLport lp (fun l => { l with gotInit := true, inNode := fld f 38 8, inCaps := fld f 32 2, inLimit := limits
                                   st := if l.st = 8 then 3 else l.st }) s
  tryActive lp (sendCtl lp ([2] ++ slice f 31 63) s)

/-- LINKCTL_INIT_ACK (R61): an INIT_ACK that echoes the port's own INIT. -/
def linkctlInitAck (lp : Nat) (f : List Byte) (s : State) : State :=
  if !rxOpen s lp then s else
  let s := heard lp s
  if !(bodyOk s lp 64 4 f && byteAt f 30 == 2 && byteAt f 31 == 1) then rxBad lp s
  else if slice f 31 63 == (initBody s lp).drop 1 && !live s lp then
    tryActive lp (setLport lp (fun l => { l with gotAck := true, st := if l.st = 8 then 3 else l.st }) s)
  else s

/-! ### Replay -/

/-- Starts a replay from a sequence number (R59, R60); REPLAY_MAX replays in a row from one frame take the port DOWN. -/
def startReplay (lp from_ : Nat) (s : State) : State :=
  let s := count (portCtr lp 0x120) s
  let s := setLport lp (fun l =>
    { l with replayQ := (l.replay.filter fun f => decide (0 ≤ seqDiff f.seq from_)).map (·.seq)
             replayRun := if l.replayFrom = some from_ then l.replayRun + 1 else 1
             replayFrom := some from_ }) s
  if bits (kmtCfg s lp) 15 12 ≤ (lport s lp).replayRun then goDown lp 3 s else s

/-- Oldest unacknowledged sequence number, or the next to be sent. -/
def oldestSeq (l : LPort) : Nat := (l.replay.head?.map (·.seq)).getD l.txSeq

/-- ACK_RECEIVE (R51, R58). -/
def ackReceive (lp : Nat) (f : List Byte) (s : State) : State :=
  if !(rxOpen s lp && live s lp) then s else
  let s := heard lp s
  if !bodyOk s lp 32 2 f then rxBad lp s else
  let h := linkHdr f
  takeLimits lp f (if h.av then ackUpTo lp h.ackseq s else s)

/-- NAK_RECEIVE (R59). -/
def nakReceive (lp : Nat) (f : List Byte) (s : State) : State :=
  if !(rxOpen s lp && live s lp) then s else
  let s := heard lp s
  if !bodyOk s lp 32 3 f then rxBad lp s else
  let a := (linkHdr f).ackseq
  let s := takeLimits lp f (count (portCtr lp 0x118) s)
  let l := lport s lp
  if seqDiff a (oldestSeq l) < 0 ∨ 0 < seqDiff a l.txSeq then s
  else if l.replayFrom = some a ∧ l.replayQ ≠ [] then s
  else
    let s := ackUpTo lp a s
    if (lport s lp).replay = [] then s else startReplay lp a s

/-- REPLAY_TMO_EXPIRY (R60). -/
def replayTmoExpiry (lp : Nat) (s : State) : State :=
  if !(kmtPort s lp && live s lp) then s else
  match (lport s lp).replay.head? with
  | none => s
  | some f => startReplay lp f.seq (atLeast (f.sentAt + bits (kmtCfg s lp) 11 6 * 1000) s)

/-- ACK_DELAY_EXPIRY (R56). -/
def ackDelayExpiry (lp : Nat) (s : State) : State :=
  let l := lport s lp
  if kmtPort s lp && live s lp && decide (0 < l.unacked) then
    sendAck lp (atLeast (l.unackedAt + bits (kmtCfg s lp) 5 0 * 50) s)
  else s

/-- IDLE_ACK_TIMER (R56). -/
def idleAckTimer (lp : Nat) (s : State) : State :=
  if kmtPort s lp && live s lp then sendAck lp (atLeast ((lport s lp).lastTx + 1000) s) else s

/-- NAK_HOLDOFF_EXPIRY (R57). -/
def nakHoldoffExpiry (lp : Nat) (s : State) : State :=
  if !(kmtPort s lp && live s lp) then s else
  match (lport s lp).nak with
  | some (a, r, t) => if a = (lport s lp).next then sendNak lp r (atLeast (t + 2000) s) else s
  | none => s

/-! ### Sending DATA frames -/

/-- Secure association in use for transmission. -/
def txSaOf (l : LPort) : Option Sa := l.txAn.bind fun a => l.txSa.find? (·.an == a)

/-- May a DATA frame be sent under MACsec (R76, R77)? Not without an association, nor at the last packet number. -/
def txSecOk (s : State) (lp : Nat) : Bool :=
  !macsecReq s lp || ((txSaOf (lport s lp)).map fun a => decide (a.pn < 2 ^ 64 - 1)).getD false

/-- A transmission takes the next packet number; 0xC000_0000_0000_0000 raises the rekey event (R77). -/
def takePn (lp : Nat) (s : State) : Option Nat × State :=
  if !macsecReq s lp then (none, s) else
  match txSaOf (lport s lp) with
  | none => (none, s)
  | some a =>
    let s := setLport lp (fun l => { l with txSa := modIf (·.an == a.an) (fun b => { b with pn := b.pn + 1 }) l.txSa }) s
    (some a.pn, if a.pn + 1 = 0xC000000000000000 then attn 0 s else s)

/-- Puts a DATA frame on the wire (R47, R49, R99), with an acknowledgement. -/
def putData (lp : Nat) (t : TxFrame) (s : State) : State :=
  let (pn, s) := takePn lp s
  let l := lport s lp
  let h := linkHeader 1 t.tc (plenOf t.poison t.body) 0 true t.seq l.next
  let f := frameOf s lp (h ++ blocksOf (ceilDiv t.body.length 256) t.body)
  let s := captureAtPoint 1 f t.ilp lp t.tc (byteAt t.body 3 % 64) t.poison t.mcast 0 (f.length + 4) s
  emit (.data lp f t.poison pn)
    (setLport lp (fun l => { l with lastTx := s.clock.clk, unacked := 0
                                    replay := modIf (·.seq == t.seq) (fun f => { f with sentAt := s.clock.clk }) l.replay }) s)

/-- Bytes that a frame takes in the replay buffer: the frame as sent. -/
def replayBytes (n : Nat) : Nat := 34 + 260 * ceilDiv n 256

/-- Packet bytes of a frame in the egress queue. -/
def cargoBytes : Cargo → List Byte
  | .kmt p => kmtBytes p
  | .plain f => f.bytes
  | .reply f => f.bytes

/-- Is this the oldest frame of its class in a port's egress queue? A class leaves an output in order (R91). -/
def oldestOf (s : State) (lp : Nat) (f : EFrame) : Bool := (s.sw.egress.find? fun g => g.lp == lp && g.tc == f.tc) == some f

/-- May this egress frame be started now (R52, R58, R91)? -/
def canStart (s : State) (lp : Nat) (f : EFrame) : Bool :=
  let l := lport s lp
  let b := plenOf f.poison (cargoBytes f.cargo)
  f.lp == lp && oldestOf s lp f && decide (seqDiff (l.sent.getD f.tc 0 + ceilDiv b 256) (l.peerLimit.getD f.tc 0) ≤ 0) &&
    decide (sum (l.replay.map fun t => replayBytes t.body.length) + replayBytes b ≤ replayShare s lp)

/-- DATA_FRAME_SEND (R52, R58, R59, R77): a frame of the replay goes first, else the first queued frame that credit and the
replay buffer allow. -/
def dataFrameSend (lp : Nat) (s : State) : State :=
  if !(kmtPort s lp && live s lp && txSecOk s lp) then s else
  let l := lport s lp
  match l.replayQ with
  | q :: qs =>
    let s := setLport lp (fun l => { l with replayQ := qs }) s
    match l.replay.find? (·.seq == q) with
    | some t => putData lp t s
    | none => s
  | [] =>
    match s.sw.egress.find? (canStart s lp) with
    | none => s
    | some f =>
      let b := cargoBytes f.cargo
      let t : TxFrame := { seq := l.txSeq, tc := f.tc, body := b, poison := f.poison, ilp := f.ilp, mcast := f.mcast, sentAt := s.clock.clk }
      let s := { s with sw.egress := s.sw.egress.erase f }
      let s := setLport lp (fun l =>
        { l with txSeq := (l.txSeq + 1) % 2 ^ 32, replay := l.replay ++ [t], sent := addAt l.sent f.tc (ceilDiv (plenOf f.poison b) 256) }) s
      putData lp t (if f.poison then count 0x02000410 s else s)

/-! ### Lane degrade and restore -/

/-- The largest aligned group, of the widths given, inside `inside` and outside `bad`, lowest lanes first (R64). -/
def laneGroup (inside bad : Nat) : List Nat → Option Nat
  | [] => none
  | w :: ws =>
    let groups := (List.range (8 / w)).map fun i => (2 ^ w - 1) * 2 ^ (w * i)
    match groups.find? fun g => g &&& inside == g && g &&& bad == 0 with
    | some g => some g
    | none => laneGroup inside bad ws

/-- The 64-bit marker word (Table 2-8). -/
def markerWord (mtype mask cw : Nat) : Nat :=
  let hi := mtype * 2 ^ 24 + mask * 2 ^ 16 + cw
  hi * 2 ^ 32 + crc32c (le 4 hi)

/-- Sends a marker on every transmit lane of the current set. -/
def sendMarker (lp mtype mask cw : Nat) (s : State) : State := emit (.marker lp (lport s lp).lanes (markerWord mtype mask cw)) s

/-- Starts a degrade or restore to a new lane set: SWITCH_CW is this end's choice (R65). -/
def startMove (lp mask : Nat) (isRestore : Bool) (s : State) : State :=
  let cw := freeVal s % 65536
  let s := useFree (setLport lp (fun l =>
    { l with move := some { mask, switchCw := cw, initiator := true, restore := isRestore, startAt := s.clock.clk
                            sentAt := s.clock.clk } }) s)
  sendMarker lp (if isRestore then 0xD9 else 0xD6) mask cw s

/-- Cause code of a lane failure (Table 17-11). -/
def laneCause : LaneCause → Nat
  | .cdr => 1
  | .align => 2
  | .symbols => 3

/-- LANE_FAIL (R63 to R68). -/
def laneFail (lp lane : Nat) (c : LaneCause) (s : State) : State :=
  let l := lport s lp
  if !(running s && isLport s lp && live s lp && bit l.lanes lane) then s else
  if !isKmt s lp || width s lp == 1 || !bit (degCfg s lp) 0 || !bit l.peerCaps 0 then goDown lp 5 s else
  let bad := if bit l.failed lane then l.failed else l.failed + 2 ^ lane
  let s := setLport lp (fun l => { l with failed := bad, good := if bit l.good lane then l.good - 2 ^ lane else l.good }) s
  let s := fault 1 (laneCause c) none lp (portCtr lp 0x128) 0 0 s
  match l.move with
  | some m => if !m.restore && !bit m.mask lane then s else
    match laneGroup l.lanes bad ([4, 2, 1].filter (· < popcount8 l.lanes)) with
    | some g => startMove lp g false s
    | none => goDown lp 5 s
  | none =>
    match laneGroup l.lanes bad ([4, 2, 1].filter (· < popcount8 l.lanes)) with
    | some g => startMove lp g false s
    | none => goDown lp 5 s

/-- A received DEGRADE or RESTORE is answered and followed at SWITCH_CW (R65, R69). -/
def moveAsked (lp : Nat) (m : Marker) (isRestore : Bool) (s : State) : State :=
  if !(kmtPort s lp && live s lp && m.crcOk) then s else
  let s := setLport lp (fun l =>
    { l with move := some { mask := m.mask, switchCw := m.switchCw, initiator := false, restore := isRestore, acked := true
                            startAt := s.clock.clk, sentAt := s.clock.clk } }) (heard lp s)
  sendMarker lp (if isRestore then 0xDB else 0xDA) m.mask m.switchCw s

/-- The lane set changes; PORT_DEGRADE counts the completed degrade or restore (R65, R69). -/
def finishMove (lp : Nat) (m : LaneMove) (s : State) : State :=
  count (portCtr lp 0x128) (setLport lp (fun l =>
    { l with lanes := m.mask, move := none, st := linkedState s lp m.mask
             failed := if m.restore then l.failed &&& (0xFF ^^^ m.mask) else l.failed
             good := l.good &&& (0xFF ^^^ m.mask) }) s)

/-- DEGRADE_ACK or RESTORE_ACK ends the repetition (R65). -/
def moveAcked (lp : Nat) (mk : Marker) (isRestore : Bool) (s : State) : State :=
  if !(kmtPort s lp && live s lp && mk.crcOk) then s else
  match (lport s lp).move with
  | some m =>
    if m.initiator && m.restore == isRestore && m.mask == mk.mask then
      if m.switched then finishMove lp m s
      else setLport lp (fun l => { l with move := some { m with acked := true } }) s
    else s
  | none => s

def degrade (lp : Nat) (m : Marker) (s : State) : State := moveAsked lp m false s
def degradeAck (lp : Nat) (m : Marker) (s : State) : State := moveAcked lp m false s
def restore (lp : Nat) (m : Marker) (s : State) : State := moveAsked lp m true s
def restoreAck (lp : Nat) (m : Marker) (s : State) : State := moveAcked lp m true s

/-- DEGRADE_REPEAT_TIMER (R65, and R69 for RESTORE): the marker again every 200 ns until the answer arrives. -/
def degradeRepeatTimer (lp : Nat) (s : State) : State :=
  match (lport s lp).move with
  | some m =>
    if kmtPort s lp && m.initiator && !m.acked then
      let s := atLeast (m.sentAt + 200) s
      sendMarker lp (if m.restore then 0xD9 else 0xD6) m.mask m.switchCw
        (setLport lp (fun l => { l with move := some { m with sentAt := s.clock.clk } }) s)
    else s
  | none => s

/-- SWITCH_CW (R65): both directions move to the new lane set. -/
def switchCw (lp : Nat) (s : State) : State :=
  match (lport s lp).move with
  | some m =>
    if !(kmtPort s lp && live s lp) then s
    else if m.acked then finishMove lp m s
    else setLport lp (fun l => { l with lanes := m.mask, move := some { m with switched := true } }) s
  | none => s

/-- DEGRADE_ACK_TIMEOUT (R66): no answer 2.5 µs after the first marker takes the port DOWN. -/
def degradeAckTimeout (lp : Nat) (s : State) : State :=
  match (lport s lp).move with
  | some m => if kmtPort s lp && m.initiator && !m.acked then goDown lp 4 (atLeast (m.startAt + 2500) s) else s
  | none => s

/-- RESTORE_TIMER (R69): a retrained lane has run error-free for RESTORE_MS and the link widens as far as the good lanes allow. -/
def restoreTimer (lp lane : Nat) (s : State) : State :=
  let l := lport s lp
  if !(kmtPort s lp && live s lp && bit (degCfg s lp) 1 && bit l.failed lane && l.move.isNone) then s else
  let good := if bit l.good lane then l.good else l.good + 2 ^ lane
  let s := setLport lp (fun l => { l with good := good }) s
  let bad := l.failed &&& (0xFF ^^^ good)
  match laneGroup (startLanes s lp) bad ([8, 4, 2, 1].filter (popcount8 l.lanes < ·)) with
  | some g => startMove lp g true s
  | none => s

/-! ### Loss of link -/

/-- PCS_ALIGN_LOSS (R71). A port in RE_HOME does not go DOWN; its INIT exchange starts again when it trains. -/
def pcsAlignLoss (lp : Nat) (s : State) : State :=
  let l := lport s lp
  if !(running s && isLport s lp) then s
  else if l.st = 6 then setLport lp (fun l => { l with rehoming := false, gotInit := false, gotAck := false }) s
  else if live s lp || l.st == 3 || l.st == 8 then goDown lp 1 s
  else s

/-- SILENCE_TIMEOUT (R71). -/
def silenceTimeout (lp : Nat) (s : State) : State :=
  if kmtPort s lp && live s lp then goDown lp 2 (atLeast ((lport s lp).lastRx + 3000) s) else s

/-- PENALTY_RECOMPUTE (R72). Leaving DAMPED for DOWN is no flap (log entry 12). -/
def penaltyRecompute (lp : Nat) (s : State) : State :=
  if !(running s && isLport s lp && bit (linkCfg s lp) 31) then s else
  let v := penaltyNow s lp
  let c := linkCfg s lp
  useFree (setLport lp (fun l =>
    { l with penNow := v
             st := if l.st = 7 ∧ v < bits c 15 8 * 250 then 1
                   else if l.st ≠ 0 ∧ l.st ≠ 7 ∧ bits c 23 16 * 250 < v then 7 else l.st }) s)

/-- REHOME_MS_EXPIRY (R74). -/
def rehomeMsExpiry (lp : Nat) (s : State) : State :=
  if !(kmtPort s lp && (lport s lp).st == 6) then s else
  let s := atLeast ((lport s lp).rehomeAt + bits (linkCfg s lp) 5 0 * 1000000) s
  let s := setLport lp (fun l => clearLink l s.clock.clk 1) s
  let s := portLost lp (dropQueued lp 0 s)
  fault 3 1 none lp (portCtr lp 0x130) 0 0 (addPenalty lp (count (portCtr lp 0x130) s))

/-- A logical port enters RE_HOME, or restarts its limit (R73). -/
def enterRehome (lp : Nat) (s : State) : State :=
  let s := dropQueued lp (portCtr lp 0x138) s
  portLost lp (setLport lp (fun l =>
    { l with st := 6, rehoming := false, gotInit := false, gotAck := false, rehomeAt := s.clock.clk, move := none
             downAt := if l.downAt.isSome then l.downAt else some s.clock.clk }) s)

/-- MODE becomes OFF (R402): link state discarded, queued frames counted in SWX_DROP_OFF, OFF counts as DOWN. -/
def modeOff (p : Nat) (s : State) : State :=
  each ((List.range 8).map (8 * p + ·)) (fun lp s =>
    if (mget s.lports lp).isNone then dropQueued lp 0x02000438 s else
    let s := setLport lp (fun l => { clearLink l s.clock.clk 0 with penalty := l.penalty, penaltyAt := l.penaltyAt, penNow := l.penNow }) s
    portLost lp (dropQueued lp 0x02000438 s)) s

/-- PORT_CTL_RETRAIN (R457, Table 16-4): as a DOWN does, with no penalty, flap count, record or ATTN_N. -/
def retrain (p v : Nat) (s : State) : State :=
  each (lportsOf s p) (fun lp s => if bit v (lp % 8) ∧ (lport s lp).st ≠ 0 then
    goDown lp 0 s else s) s

/-! ### The commands -/

def execPcsLock (lp : Nat) (s : State) : Host.Outcome State Fault Refusal := .next (pcsLock lp s)
def execInitTimer (lp : Nat) (s : State) : Host.Outcome State Fault Refusal := .next (initTimer lp s)
def execNoKmtPeerTimeout (lp : Nat) (s : State) : Host.Outcome State Fault Refusal := .next (noKmtPeerTimeout lp s)
def execLinkctlInit (lp : Nat) (f : List Byte) (s : State) : Host.Outcome State Fault Refusal := .next (linkctlInit lp f s)
def execLinkctlInitAck (lp : Nat) (f : List Byte) (s : State) : Host.Outcome State Fault Refusal := .next (linkctlInitAck lp f s)
def execDataFrameSend (lp : Nat) (s : State) : Host.Outcome State Fault Refusal := .next (dataFrameSend lp s)
def execAckReceive (lp : Nat) (f : List Byte) (s : State) : Host.Outcome State Fault Refusal := .next (ackReceive lp f s)
def execNakReceive (lp : Nat) (f : List Byte) (s : State) : Host.Outcome State Fault Refusal := .next (nakReceive lp f s)
def execAckDelayExpiry (lp : Nat) (s : State) : Host.Outcome State Fault Refusal := .next (ackDelayExpiry lp s)
def execIdleAckTimer (lp : Nat) (s : State) : Host.Outcome State Fault Refusal := .next (idleAckTimer lp s)
def execNakHoldoffExpiry (lp : Nat) (s : State) : Host.Outcome State Fault Refusal := .next (nakHoldoffExpiry lp s)
def execReplayTmoExpiry (lp : Nat) (s : State) : Host.Outcome State Fault Refusal := .next (replayTmoExpiry lp s)
def execLaneFail (lp lane : Nat) (c : LaneCause) (s : State) : Host.Outcome State Fault Refusal := .next (laneFail lp lane c s)
def execDegrade (lp : Nat) (m : Marker) (s : State) : Host.Outcome State Fault Refusal := .next (degrade lp m s)
def execDegradeAck (lp : Nat) (m : Marker) (s : State) : Host.Outcome State Fault Refusal := .next (degradeAck lp m s)
def execDegradeRepeatTimer (lp : Nat) (s : State) : Host.Outcome State Fault Refusal := .next (degradeRepeatTimer lp s)
def execSwitchCw (lp : Nat) (s : State) : Host.Outcome State Fault Refusal := .next (switchCw lp s)
def execDegradeAckTimeout (lp : Nat) (s : State) : Host.Outcome State Fault Refusal := .next (degradeAckTimeout lp s)
def execRestoreTimer (lp lane : Nat) (s : State) : Host.Outcome State Fault Refusal := .next (restoreTimer lp lane s)
def execRestore (lp : Nat) (m : Marker) (s : State) : Host.Outcome State Fault Refusal := .next (restore lp m s)
def execRestoreAck (lp : Nat) (m : Marker) (s : State) : Host.Outcome State Fault Refusal := .next (restoreAck lp m s)
def execPcsAlignLoss (lp : Nat) (s : State) : Host.Outcome State Fault Refusal := .next (pcsAlignLoss lp s)
def execSilenceTimeout (lp : Nat) (s : State) : Host.Outcome State Fault Refusal := .next (silenceTimeout lp s)
def execPenaltyRecompute (lp : Nat) (s : State) : Host.Outcome State Fault Refusal := .next (penaltyRecompute lp s)
def execRehomeMsExpiry (lp : Nat) (s : State) : Host.Outcome State Fault Refusal := .next (rehomeMsExpiry lp s)

end Sys2Proof.Machine
end

