-- ==== Sys2Proof/Machine/Switch.lean ====
section
/-! DEFINITION. The switch core (chapter 3) and the receive side of the links: DATA and PLAIN frames, the matching cycle, PFC. -/

namespace Sys2Proof.Machine

/-! ### Receiving DATA frames -/

/-- The defined transport opcodes (Tables 4-2, 5-2, 6-7a, 15-3). -/
def opKnown (op : Nat) : Bool :=
  [0x01, 0x02, 0x10, 0x11, 0x12, 0x13, 0x14, 0x15, 0x16, 0x17, 0x20, 0x21, 0x22, 0x30, 0x31, 0x32, 0x33, 0x34, 0x35, 0x36, 0x38,
   0x39, 0x3A, 0x40, 0x41, 0x42, 0x50, 0x51, 0x52, 0x53, 0x54, 0x55, 0x56, 0x58, 0x59, 0x5C, 0x5D, 0x80, 0x81].contains op

/-- Why the packets of a body end early (R111): a reserved opcode, or a length past the body. -/
inductive BodyEnd where
  | ok
  | badOpcode (p : Kmt)
  | runsPast (p : Option Kmt)
  deriving DecidableEq, Repr

/-- The packets of a frame's body (R111). -/
def parseBody : Nat → List Byte → List Kmt × BodyEnd
  | 0, _ => ([], .ok)
  | fuel + 1, b =>
    if b = [] then ([], .ok)
    else if b.length < 32 then ([], .runsPast none)
    else
      let p := kmtOf b
      if !opKnown p.opcode then ([], .badOpcode p)
      else
        let n := payloadLen p
        let m := 32 + (n + 7) / 8 * 8
        if b.length < m then ([], .runsPast (some p))
        else
          let (ps, e) := parseBody fuel (b.drop m)
          ({ p with payload := slice b 32 n } :: ps, e)

/-- Data bytes of the blocks of a frame, and the index of the first block whose CRC fails (R49, R55). -/
def readBlocks : Nat → Nat → List Byte → List Byte × Option Nat
  | 0, _, _ => ([], none)
  | n + 1, k, b =>
    let d := slice b 0 256
    if d.length = 256 ∧ fld b 256 4 = crc32c d then
      let (ds, bad) := readBlocks n (k + 1) (b.drop 260)
      (d ++ ds, bad)
    else ([], some k)

/-- Does the frame forward in cut-through, so that a late failure leaves a tail-marked copy (R55, R97, R98)? -/
def cutThrough (s : State) (inLp outLp : Nat) : Bool :=
  s.dev.devState != .baseCamp && decide (popcount8 (lport s outLp).lanes ≤ popcount8 (lport s inLp).lanes)

/-- Where a packet goes on its way through (R125, R130): logical port, class and the packet as sent there; none toward an internal
output. -/
def passesTo (s : State) (lp tc : Nat) (p : Kmt) : Option (Nat × Nat × Kmt) :=
  if 0x40 ≤ p.opcode ∧ p.opcode ≤ 0x42 then
    match routeOf s p.dst with
    | .port l => if live s l then some (l, tc, p) else none
    | .trunk g => (trunkChoice s g tc (trunkKey p tc) true).map fun l => (l.1, tc, p)
    | .drop => none
  else if p.rsp ∧ modeOf s lp = 2 then
    match s.xlt.trays.find? fun r => r.tag == p.tag && r.sent && r.pkt.opcode == p.opcode && r.pkt.dst == p.src && r.pkt.src == p.dst with
    | some r => match r.why with
      | .req id => (findReq s id).bind fun q => if live s q.lp then
          some (q.lp, q.tc, { response q.pkt (selfEp s) p.status (loadOf s q.lp (some p.load)) [] with len := p.len }) else none
      | _ => none
    | none => none
  else none

/-- The copy already forwarded of a frame that then fails a check: tail-marked toward its output, or discarded at an internal
output (R55, R98, R99). -/
def forwardPoison (lp tc : Nat) (body : List Byte) (cells : Nat) (s : State) : State :=
  if cells = 0 ∨ body.length < 32 then s else
  match passesTo s lp tc (kmtOf body) with
  | some (l, c, p) => if cutThrough s lp l then
      useFree (enqueue { id := 0, inp := inPort (lp / 8), ilp := lp, tc := c, legs := [{ out := outPort (l / 8), lp := l }], cells
                         poison := true, cargo := .kmt { p with payload := body.drop 32 }, comp := p.comp, crest := crestOf lp } s)
    else s
  | none => count 0x02000418 s

/-- A dropped frame of a trunk group without a live member (Table 3-4), recorded with its ingress port's MACs. -/
def dropTrunk (ilp tc : Nat) (p : Kmt) (s : State) : State := attn 1 (count 0x02000430 (captureDrop ilp ilp tc (.kmt p) p.comp false false 4 s))

/-- A packet that the Talik sends to an endpoint by its ID, from an internal input (R125): dropped when it has no way there. -/
def sendDst (inp tc : Nat) (p : Kmt) (gate : Gate) (s : State) : State :=
  match routeOf s p.dst with
  | .drop => s
  | .port l => if live s l || (lport s l).st == 6 then sendFrom inp l tc p gate s else count 0x03000468 s
  | .trunk g =>
    match trunkChoice s g tc (trunkKey p tc) true with
    | none => dropTrunk 0x3FF tc p s
    | some (l, moved) => sendFrom inp l tc p gate (if moved then count 0x02000400 s else s)

/-- Answers a packet's SRC with a status: on the ACCEL port it came from, or by its route. -/
def answerSrc (lp tc : Nat) (p : Kmt) (status : Nat) (s : State) : State :=
  let r := response p (selfEp s) status (loadOf s lp none) []
  useFree (if modeOf s lp = 1 then sendFrom (inMem (crestOf lp)) lp tc r none s else sendDst (inMem (crestOf lp)) tc r none s)

/-- Hands the packets of an accepted body on; the last one carries the frame's credit (R51, R111, R112). -/
def takeBody (lp tc cells : Nat) (body : List Byte) (s : State) : State :=
  let (ps, e) := parseBody (body.length + 1) body
  let n := ps.length
  let s := { s with rx := s.rx ++ ps.mapIdx fun i p => { lp, tc, pkt := p, credit := if i + 1 = n then cells else 0 } }
  let s := if n = 0 then freeCredit lp tc cells s else s
  match e with
  | .ok => s
  | .badOpcode p =>
    let s := count 0x03000400 s
    if p.rsp then s else answerSrc lp tc p 0x10 s
  | .runsPast none => count 0x03000400 s
  | .runsPast (some p) =>
    let s := count 0x03000400 s
    if p.rsp then s else answerSrc lp tc p 0x23 s

/-- A frame with the sequence number NEXT is accepted or counted as received (R54, R56). -/
def advance (lp : Nat) (s : State) : State :=
  let s := setLport lp (fun l =>
    { l with next := (l.next + 1) % 2 ^ 32, nak := none, unacked := l.unacked + 1
             unackedAt := if l.unacked = 0 then s.clock.clk else l.unackedAt }) s
  if 16 ≤ (lport s lp).unacked then sendAck lp s else s

/-- DATA_FRAME_RECEIVE (R46, R54, R55, R76, R100, R400). -/
def dataFrameReceive (lp : Nat) (sec : Sec) (f : List Byte) (fcs : Fcs) (s : State) : State :=
  if !(kmtPort s lp && live s lp) then s else
  let s := heard lp s
  if frameEtype f ≠ etypeOf s lp then rxBad lp s
  else if macsecReq s lp && sec == .absent then rxBad lp s
  else
    let h := linkHdr f
    let n := ceilDiv h.plen 256
    let body := f.drop 30
    if sec == .invalid then
      let (d, _) := readBlocks n 0 body
      sendNak lp 0 (forwardPoison lp h.tc d (d.length / 256) (rxBad lp s))
    else if !h.hcrcOk then sendNak lp 0 (rxBad lp s)
    else if h.ver ≠ 1 ∨ h.subtype ≠ 1 ∨ h.plen = 0 ∨ 8192 < h.plen then rxBad lp s
    else
      let s := if h.av then ackUpTo lp h.ackseq s else s
      let d := seqDiff h.seq (lport s lp).next
      if d < 0 then sendAck lp s
      else if 0 < d then sendNak lp 2 s
      else if fcs == .stomped then
        count 0x02000418 (freeCredit lp h.tc n (advance lp s))
      else match readBlocks n 0 body with
        | (ok, some k) => sendNak lp 1 (forwardPoison lp h.tc ok k (count (portCtr lp 0x108) s))
        | (ok, none) =>
          if fcs == .bad then sendNak lp 0 (forwardPoison lp h.tc ok n (rxBad lp s))
          else
            let out := ((passesTo s lp h.tc (kmtOf ok)).map (·.1)).getD 0x3FF
            let s := captureAtPoint 0 f lp out h.tc (byteAt ok 3 % 64) false false 0 (f.length + 4) s
            let s := advance lp s
            if modeOf s lp = 4 then freeCredit lp h.tc n (rxBad lp s)
            else takeBody lp h.tc n (ok.take h.plen) s

/-! ### PLAIN frames and PFC -/

/-- Six bytes of a MAC in network order. -/
def macBytes (m : Nat) : List Byte := (le 6 m).reverse

/-- Logical port of a MAC entry for an address (R104, R108); an entry that names no first lane is ignored (R401). -/
def macLookup (s : State) (mac : Nat) : Option Nat :=
  let hits := s.regs.filterMap fun r =>
    if 0x02200000 ≤ r.1 ∧ r.1 < 0x02208000 ∧ r.1 % 8 = 4 then
      let e := le 4 (reg s (r.1 - 4)) ++ le 4 r.2.toNat
      let l := (byteAt e 6 % 4) * 256 + byteAt e 7
      if bit (byteAt e 6) 7 ∧ e.take 6 = macBytes mac ∧ isLport s l then some l else none
    else none
  hits.head?

/-- The trunk group that lists a logical port, if any. -/
def trunkOf (s : State) (lp : Nat) : Option Nat := (List.range 64).find? fun g => (trunkMembers s g).contains lp

/-- Free reserve of a class and free pool on a Crest, in cells (R96). -/
def freeCells (s : State) (crest tc : Nat) : Nat :=
  (carveResv s tc - resvUsed s crest tc) + (poolSize s - poolUsed s crest)

/-- XOFF and XON toward PLAIN peers with PFC_EN (R96). -/
def pfcCheck (s : State) : State :=
  each (s.lports.map (·.1)) (fun lp s =>
    if !(live s lp && !isKmt s lp && bit (lcfg s lp) 1) then s else
    each (List.range 8) (fun tc s =>
      let fr := freeCells s (crestOf lp) tc
      let x := bit (lport s lp).xoff tc
      if !x && decide (fr < carveXoff s tc) then
        emit (.pfc lp tc true) (setLport lp (fun l => { l with xoff := l.xoff + 2 ^ tc }) s)
      else if x && decide (2 * carveXoff s tc < fr) then
        emit (.pfc lp tc false) (setLport lp (fun l => { l with xoff := l.xoff - 2 ^ tc }) s)
      else s) s) s

/-- Is a priority paused by the peer (R45)? -/
def pausedNow (s : State) (lp tc : Nat) : Bool := decide (s.clock.clk < mgetD (lport s lp).paused tc 0)

/-- Frames in the egress queue that need no link-layer start leave at once: replies, and PLAIN frames not paused. -/
def flushEgress (s : State) : State :=
  each s.sw.egress (fun f s =>
    match f.cargo with
    | .kmt _ => s
    | .reply r => if live s f.lp then emit (.reply f.lp r) { s with sw.egress := s.sw.egress.erase f } else s
    | .plain p =>
      if live s f.lp && !pausedNow s f.lp f.tc then
        let s := captureAtPoint 1 p.bytes f.ilp f.lp f.tc f.comp f.poison f.mcast 0 p.len s
        let s := if f.poison then count 0x02000410 s else s
        emit (.plain f.lp p f.poison) { s with sw.egress := s.sw.egress.erase f }
      else s) s

/-- PLAIN_FRAME_RECEIVE (R86, R96, R104, R399, R400). -/
def plainFrameReceive (lp : Nat) (sec : Sec) (f : PlainFrame) (fcs : Fcs) (s : State) : State :=
  if !(running s && isLport s lp && modeOf s lp != 0 && live s lp) then s else
  let s := heard lp s
  if isKmt s lp || (macsecReq s lp && sec != .valid) || sec == .invalid || f.etype == etypeOf s lp || decide (9216 < f.len) ||
      modeOf s lp == 4 then rxBad lp s
  else
    let tc := f.pcp.getD 4 % 8
    let k := if epValid s lp then epComp s lp else 0
    let s := if fcs == .good then s else rxBad lp s
    match macLookup s f.dstMac with
    | none => captureAtPoint 2 f.bytes lp 0x3FF tc k false false 1 f.len (count 0x02000420 s)
    | some l =>
      let out : Option Nat :=
        match (if modeOf s l = 3 then trunkOf s l else none) with
        | some g => if trunkKmt s g then none else (trunkChoice s g tc (macBytes f.srcMac ++ macBytes f.dstMac) false).map (·.1)
        | none => some l
      match out with
      | none => captureAtPoint 2 f.bytes lp 0x3FF tc k false false 4 f.len (attn 1 (count 0x02000430 s))
      | some l =>
        if fcs != .good && !(cutThrough s lp l && decide (512 < f.len)) then s
        else if (lport s l).st = 6 then captureAtPoint 2 f.bytes lp 0x3FF tc k false false 5 f.len (count (portCtr l 0x138) s)
        else if !live s l then s
        else match carveTake s (crestOf lp) tc (ceilDiv f.len 256) with
          | none => pfcCheck (captureAtPoint 2 f.bytes lp 0x3FF tc k false false 2 f.len (count (0x02000440 + 8 * tc) s))
          | some (r, q) =>
            let s := captureAtPoint 0 f.bytes lp l tc k false false 0 f.len s
            pfcCheck (enqueue { id := 0, inp := inPort (lp / 8), ilp := lp, tc, legs := [{ out := outPort (l / 8), lp := l }]
                                cells := ceilDiv f.len 256, cargo := .plain f, comp := k, crest := crestOf lp, resv := r, pool := q
                                poison := fcs != .good } s)

/-- PFC_FRAME_RECEIVE (R45): a priority of a PLAIN port with PFC_EN pauses for the quanta, or resumes with 0. -/
def pfcFrameReceive (lp prio quanta : Nat) (s : State) : State :=
  if !(running s && isLport s lp && live s lp) then s else
  let s := heard lp s
  if isKmt s lp then rxBad lp s
  else if !bit (lcfg s lp) 1 then s
  else
    let rate := max 1 (popcount8 (lport s lp).lanes) * (if s.dev.devState = .baseCamp then 100 else 200)
    let until_ := s.clock.clk + quanta * 512 / rate
    flushEgress (setLport lp (fun l =>
      { l with paused := if quanta = 0 then mdel l.paused prio else mset l.paused prio until_ }) s)

/-- ARP_REQUEST (R339). -/
def arpRequest (lp target srcMac srcIp : Nat) (s : State) : State :=
  if running s && isLport s lp && live s lp && !isKmt s lp && modeOf s lp == 4 && target == reg s 0x08000018 then
    emit (.arp lp target (reg64 s 0x08000010 % 2 ^ 48) srcMac srcIp) (heard lp s)
  else s

/-- CMD_IPV6: four words, the first holding the most significant bits (R365). -/
def cmdIpv6 (s : State) : Nat :=
  ((reg s 0x08000020 * 2 ^ 32 + reg s 0x08000024) * 2 ^ 32 + reg s 0x08000028) * 2 ^ 32 + reg s 0x0800002C

/-- NEIGHBOUR_SOLICITATION (R339). -/
def neighbourSolicitation (lp target srcMac srcIp : Nat) (s : State) : State :=
  if running s && isLport s lp && live s lp && !isKmt s lp && modeOf s lp == 4 && target == cmdIpv6 s then
    emit (.nadv lp target (reg64 s 0x08000010 % 2 ^ 48) srcMac srcIp) (heard lp s)
  else s

/-- LLDP_FRAME (R46): passed to the Hut in TC7. -/
def lldpFrame (lp : Nat) (b : List Byte) (s : State) : State :=
  if running s && isLport s lp && live s lp then { heard lp s with toHut := s.toHut ++ [(lp, b)] } else s

/-! ### The matching cycle -/

/-- Priority level of a class (R87). -/
def levelOf (s : State) (tc : Nat) : Nat := bits (reg s 0x02000004) (2 * tc + 1) (2 * tc)

/-- Number of set bits among the low sixteen. -/
def popcount16 (m : Nat) : Nat := sum ((List.range 16).map fun i => b2n (bit m i))

/-- Level of a class toward an output: level 3 counts as 0 once the output has granted L3_CAP of it in 16 cycles (R87). -/
def levelAt (s : State) (o tc : Nat) : Nat :=
  let l := levelOf s tc
  if l = 3 ∧ bits (reg s 0x02000004) 20 16 ≤ popcount16 (mgetD s.sw.l3 o 0) then 0 else l

/-- A queue head toward an output: input, output, class, level, frame, logical port. -/
structure Cand where
  inp : Nat
  out : Nat
  tc : Nat
  lvl : Nat
  fid : Nat
  lp : Nat
  mcast : Bool
  deriving DecidableEq, Repr

/-- The eligible heads: the oldest frame of each input, class and output (R89, R91), once it may leave. -/
def candidates (s : State) : List Cand :=
  let step := fun (acc : List (Nat × Nat × Nat) × List Cand) (f : VFrame) =>
    f.legs.foldl (fun (acc : List (Nat × Nat × Nat) × List Cand) l =>
      let key := (f.inp, f.tc, l.out)
      if acc.1.contains key then acc
      else (key :: acc.1, if f.inBuf && gateOpen s f.gate then
        acc.2 ++ [{ inp := f.inp, out := l.out, tc := f.tc, lvl := levelAt s l.out f.tc, fid := f.id, lp := l.lp, mcast := f.mcast }]
        else acc.2)) acc
  (s.sw.voq.foldl step ([], [])).2

/-- The head that a slot from input i to output o serves: highest level, then the class after the one last sent (R90). -/
def serve (s : State) (cs : List Cand) (i o : Nat) : Option Cand :=
  let mine := cs.filter fun c => c.inp == i && c.out == o
  let last := mgetD s.sw.lastTc (260 * i + o) 0
  mine.foldl (fun b c => match b with
    | none => some c
    | some b => if b.lvl < c.lvl ∨ (b.lvl = c.lvl ∧ (c.tc + 8 - last % 8) % 8 < (b.tc + 8 - last % 8) % 8) then some c else some b) none

/-- The element with the least key. -/
def leastBy (key : Nat → Nat) : List Nat → Option Nat
  | [] => none
  | x :: xs => match leastBy key xs with
    | none => some x
    | some y => if key x ≤ key y then some x else some y

/-- State of a match: matched pairs with their heads, and the pointers. -/
structure Match where
  pairs : List Cand := []
  gptr : SMap Nat
  aptr : SMap Nat
  deriving DecidableEq, Repr

/-- One request-grant-accept iteration (R89); multicast heads accept every grant for them (R102). -/
def iterate (s : State) (cs : List Cand) (first : Bool) (m : Match) : Match :=
  let free := cs.filter fun c => m.pairs.all fun p => p.inp != c.inp && p.out != c.out
  let outs := (free.map (·.out)).eraseDups
  let grants := outs.filterMap fun o =>
    let mine := free.filter (·.out == o)
    let top := mine.foldl (fun a c => max a c.lvl) 0
    let ptr := mgetD m.gptr (4 * o + top) 0
    (leastBy (fun i => (i + 292 - ptr % 292) % 292) ((mine.filter (·.lvl == top)).map (·.inp))).map fun i => (i, o, top)
  let inps := (grants.map (·.1)).eraseDups
  inps.foldl (fun m i =>
    let mine := grants.filter (·.1 == i)
    let top := mine.foldl (fun a g => max a g.2.2) 0
    let ptr := mgetD m.aptr (4 * i + top) 0
    match leastBy (fun o => (o + 260 - ptr % 260) % 260) ((mine.filter (·.2.2 == top)).map (·.2.1)) with
    | none => m
    | some a =>
      match serve s free i a with
      | none => m
      | some c =>
        let more := if c.mcast then (mine.filter (·.2.1 != a)).filterMap fun g =>
            (serve s free i g.2.1).bind fun d => if d.fid = c.fid then some d else none
          else []
        { m with
          pairs := m.pairs ++ c :: more
          gptr := if first then mset m.gptr (4 * a + top) ((i + 1) % 292) else m.gptr
          aptr := if first then mset m.aptr (4 * i + top) ((a + 1) % 260) else m.aptr }) m

/-- The match of one cycle: three iterations (R83, R89). -/
def matchCycle (s : State) : Match :=
  let cs := candidates s
  iterate s cs false (iterate s cs false (iterate s cs true { gptr := s.sw.gptr, aptr := s.sw.aptr }))

/-- A frame whose last cell has reached an output: into the port's egress queue, or to the internal output, where a tail-marked
frame is discarded (R99). -/
def deliver (f : VFrame) (lp : Nat) (s : State) : State :=
  if lp = 0x3FF then
    if f.poison then count 0x02000418 s else
    match f.cargo with
    | .kmt p => { s with rx := s.rx ++ [{ lp := f.ilp, tc := f.tc, pkt := p }] }
    | _ => s
  else { s with sw.egress := s.sw.egress ++ [{ lp, tc := f.tc, cargo := f.cargo, poison := f.poison, ilp := f.ilp, mcast := f.mcast
                                               comp := f.comp }] }

/-- A frame that all its outputs have received leaves the buffer and returns its credit (R51, R102). -/
def retire (fid : Nat) (s : State) : State :=
  match s.sw.voq.find? (·.id == fid) with
  | none => s
  | some f => if f.legs.isEmpty then freeCredit f.ilp f.tc f.credit { s with sw.voq := s.sw.voq.filter (·.id != fid) } else s

/-- One granted slot: up to two cells of the frame move to the output (R84, R89). -/
def slot (c : Cand) (s : State) : State :=
  match s.sw.voq.find? (·.id == c.fid) with
  | none => s
  | some f =>
    let isLeg := fun (l : Leg) => l.out == c.out && l.lp == c.lp
    let move := fun (f : VFrame) => { f with legs := modIf isLeg (fun l => { l with moved := min f.cells (l.moved + 2) }) f.legs }
    let s := { s with sw.lastTc := mset s.sw.lastTc (260 * c.inp + c.out) (c.tc + 1)
                      sw.voq := modIf (·.id == c.fid) move s.sw.voq }
    match (s.sw.voq.find? (·.id == c.fid)).bind fun f => f.legs.find? isLeg with
    | none => s
    | some l =>
      if l.moved < f.cells then s else
      let drop := fun (f : VFrame) => { f with legs := f.legs.filter fun k => !isLeg k }
      let s := { s with sw.voq := modIf (·.id == c.fid) drop s.sw.voq }
      retire c.fid (deliver f c.lp s)

/-- Each output's level-3 history moves on by one cycle (R87). -/
def shiftL3 (pairs : List Cand) (s : State) : State :=
  let hit := fun o => pairs.any fun c => c.out == o && c.lvl == 3
  let outs := (s.sw.l3.map (·.1) ++ pairs.map (·.out)).eraseDups
  { s with sw.l3 := outs.foldl (fun m o => msetD m o 0 ((mgetD m o 0 * 2 + b2n (hit o)) % 65536)) s.sw.l3 }

/-- Copies for members that are DOWN or in RE_HOME are dropped (R73, R103). -/
def dropDead (s : State) : State :=
  each s.sw.voq (fun f s =>
    let gone := f.legs.filter fun l => l.lp != 0x3FF && !live s l.lp
    if gone = [] then s else
    let s := { s with sw.voq := modIf (·.id == f.id) (fun f => { f with legs := f.legs.filter fun l => !gone.contains l }) s.sw.voq }
    let s := each gone (fun l s =>
      let drop := fun n => captureDrop l.lp f.ilp f.tc f.cargo f.comp f.poison f.mcast n s
      if f.mcast then count 0x02000428 (drop 3)
      else if (lport s l.lp).st = 6 then count (portCtr l.lp 0x138) (drop 5) else s) s
    retire f.id s) s

/-- Stalled internal frames take cells that have become free, in order (R96). -/
def unstall (s : State) : State :=
  each (s.sw.voq.filter (!·.inBuf)) (fun f s =>
    match carveTake s f.crest f.tc f.cells with
    | some (r, q) => { s with sw.voq := modIf (·.id == f.id) (fun f => { f with inBuf := true, resv := r, pool := q }) s.sw.voq }
    | none => s) s

/-- MATCHING_CYCLE (R83 to R92, R102, R103). When the digests disagree no cell moves (R85). -/
def matchingCycle (agree : Bool) (s : State) : State :=
  if !running s then s else
  let s := dropDead s
  let m := matchCycle s
  let s := shiftL3 m.pairs { s with sw.gptr := m.gptr, sw.aptr := m.aptr }
  if agree then pfcCheck (flushEgress (unstall (each m.pairs slot s)))
  else
    let rs := (s.sw.resyncs.filter fun t => decide (s.clock.clk < t + 1000000)) ++ [s.clock.clk]
    let s := attn 1 (count 0x02000408 { s with sw.resyncs := rs })
    if bits (reg s 0x02000000) 7 0 < rs.length then selfStop 1 s else s

/-! ### The commands -/

def execDataFrameReceive (lp : Nat) (sec : Sec) (f : List Byte) (fcs : Fcs) (s : State) : Host.Outcome State Fault Refusal :=
  .next (dataFrameReceive lp sec f fcs s)
def execPlainFrameReceive (lp : Nat) (sec : Sec) (f : PlainFrame) (fcs : Fcs) (s : State) : Host.Outcome State Fault Refusal :=
  .next (plainFrameReceive lp sec f fcs s)
def execPfcFrameReceive (lp prio quanta : Nat) (s : State) : Host.Outcome State Fault Refusal := .next (pfcFrameReceive lp prio quanta s)
def execArpRequest (lp target srcMac srcIp : Nat) (s : State) : Host.Outcome State Fault Refusal :=
  .next (arpRequest lp target srcMac srcIp s)
def execNeighbourSolicitation (lp target srcMac srcIp : Nat) (s : State) : Host.Outcome State Fault Refusal :=
  .next (neighbourSolicitation lp target srcMac srcIp s)
def execLldpFrame (lp : Nat) (b : List Byte) (s : State) : Host.Outcome State Fault Refusal := .next (lldpFrame lp b s)
def execMatchingCycle (agree : Bool) (s : State) : Host.Outcome State Fault Refusal := .next (matchingCycle agree s)

end Sys2Proof.Machine
end

