-- ==== Sys2Proof/Machine/Loadstore.lean ====
section
/-! DEFINITION. Load/store requests, coherent requests, messages, combining decisions and rate limits: the commands of
chapters 4 and 5 that a packet, a timer or a decision point brings. -/

namespace Sys2Proof.Machine

/-! ### Packets that have been accepted -/

/-- Takes a packet from those accepted and not handled yet, returning its link credit (R51). -/
def takeRx (lp tc : Nat) (p : Kmt) (s : State) : State :=
  match s.rx.find? fun r => r.lp == lp && r.tc == tc && r.pkt == p with
  | none => s
  | some r => freeCredit lp tc r.credit { s with rx := s.rx.erase r }

/-- Credit that an accepted packet carries. -/
def rxCredit (s : State) (lp tc : Nat) (p : Kmt) : Nat :=
  ((s.rx.find? fun r => r.lp == lp && r.tc == tc && r.pkt == p).map (·.credit)).getD 0

/-- Does the port take packets: the hardware runs and the KMT port is in service (R70)? -/
def takesPackets (s : State) (lp : Nat) : Bool := kmtPort s lp && live s lp && modeOf s lp != 4

/-! ### Format checks (Tables 4-2 and 5-1) -/

/-- Is the opcode an atomic? -/
def isAtomic (op : Nat) : Bool := decide (0x10 ≤ op) && decide (op ≤ 0x17)

/-- LEN allowed for an opcode. -/
def lenOk (op n : Nat) : Bool :=
  if op = 0x01 ∨ op = 0x02 then decide (1 ≤ n) && decide (n ≤ 4096)
  else if op = 0x17 then n == 8 || n == 16
  else if isAtomic op then n == 4 || n == 8
  else if op = 0x22 then false
  else if op = 0x21 then n == 8
  else if op = 0x30 ∨ op = 0x31 ∨ op = 0x33 then n == 64
  else n == 0

/-- Classes allowed for an opcode. -/
def classOk (op tc : Nat) : Bool :=
  if op = 0x01 then tc == 1 || tc == 3 || tc == 4 || tc == 5
  else if op = 0x02 || isAtomic op then tc == 1 || tc == 4
  else tc == 1

/-- Alignment of an opcode's ADDR (R115, R122, R152). -/
def addrOk (op a n : Nat) : Bool :=
  if isAtomic op then a % atomWidth op n == 0
  else if op = 0x01 ∨ op = 0x02 then a / 4096 == (a + n - 1) / 4096
  else if (0x30 ≤ op ∧ op ≤ 0x34) ∨ 0x38 ≤ op then a % 64 == 0
  else if op = 0x35 ∨ op = 0x36 then a == 0
  else true

/-- Row "LEN out of range …" of Table 4-3. -/
def badFormat (tc : Nat) (p : Kmt) : Bool :=
  !(lenOk p.opcode p.len && classOk p.opcode tc && addrOk p.opcode p.addr p.len && p.dst == 0x3FFFF)

/-- Right bits (R, W, A as bits 2, 1, 0) of which a job must hold one (Right column of Tables 4-2 and 5-1); none is 0. -/
def rightOf (op : Nat) : Nat :=
  if op = 0x01 ∨ op = 0x30 ∨ op = 0x34 ∨ op = 0x35 then 4
  else if op = 0x02 ∨ op = 0x21 ∨ op = 0x31 ∨ op = 0x32 ∨ op = 0x33 then 2
  else if isAtomic op then 1
  else if op = 0x20 then 7
  else 0

/-! ### The checks of Table 4-3 -/

/-- How a request fares at a row of Table 4-3. -/
inductive Ls where
  | ok
  /-- Dropped, with the counter that counts it. -/
  | drop (ctr : Nat)
  /-- Answered with a status, to an endpoint; LOAD for RETRY_LATER; counter, 0 for none. -/
  | refuse (dst status load ctr : Nat)
  /-- Answered from the reply cache. -/
  | cached (c : Cached)
  /-- The original's response answers it. -/
  | discard
  deriving DecidableEq, Repr

/-- The first outcome that is not `ok`. -/
def Ls.orElse (a b : Ls) : Ls := if a = .ok then b else a

/-- A row: refused when the condition holds. -/
def Ls.row (c : Bool) (o : Ls) : Ls := if c then o else .ok

/-- The row of the reply cache. -/
def rcacheRow : Option Cached → Ls
  | some c => .cached c
  | none => .ok

/-- Is the composition's work fenced (R428)? -/
def fencedComp (s : State) (k : Nat) : Bool := s.flt.fenced && mirrorBit s k

/-- Rows of the region check (Tables 5-6 and R405); 0 as status is "proceeds". -/
def regionCheck (s : State) (lp : Nat) (p : Kmt) : Ls :=
  let op := p.opcode
  let apt := aptOf s p.space
  let r := (regionAt s p.space p.addr).map (·.2)
  let coh := (r.map (·.mode == 0)).getD false
  let agent := apt.bind fun a => liveAgent s a p.src
  (Ls.row (decide (0x38 ≤ op) && decide (op ≤ 0x3A)) (.refuse p.src 0x13 0 0x04000450)).orElse <|
  (Ls.row ((op == 0x35 && apt.isNone) || (isLineOp op && !coh)) (.refuse p.src 0x12 0 0x04000458)).orElse <|
  (Ls.row (op == 0x35 && agent.isNone && ((apt.map fun a => decide (512 ≤ agentCount s a 1 + agentCount s a 2)).getD false))
    (.refuse p.src 0x15 0 0)).orElse <|
  (Ls.row (isLineOp op && agent.isNone) (.refuse p.src 0x13 0 0x04000450)).orElse <|
  (Ls.row (op == 0x21 && !((r.map fun r => r.mode == 1 && r.base == p.addr).getD false))
    (.refuse p.src 0x12 0 0x04000458)).orElse <|
  (Ls.row (isAtomic op && (r.map (·.mode == 2)).getD false) (.refuse p.src 0x11 0 0x04000458)).orElse <|
  (Ls.row (((isLineOp op && lineFull s p.space (lineOf p.addr)) ||
      ((op == 0x01 || op == 0x02 || isAtomic op) && coh && multiFull s p.addr (atomWidth op p.len))))
    (.refuse p.src 0x02 12 0x04000428)).orElse <|
  Ls.row ((r.map fun r => r.mode == 1 && r.conf).getD false && !macsecReq s lp) (.refuse p.src 0x52 0 0)

/-- Does ADDR of a request name a byte? That of a FLUSH, CJOIN or CLEAVE, which is for the whole space, does not (R116, R152). -/
def namesByte (op : Nat) : Bool := !(op == 0x20 || op == 0x35 || op == 0x36)

/-- The extent that a request's ADDR lies in. -/
def extOf (s : State) (p : Kmt) : Option (Nat × Extent) := if namesByte p.opcode then extAt s p.space p.addr else none

/-- Table 4-3 for a load/store or coherent request of an endpoint, up to "Uncorrectable internal error". -/
def lsCheck (s : State) (lp tc : Nat) (p : Kmt) : Ls :=
  let op := p.opcode
  let ep := epId s lp
  let k := p.comp
  let crest := crestOf lp
  let job := mget s.xlt.jobs p.job
  let sp := mget s.xlt.spaces p.space
  let ring := if namesByte op then ringAt s p.space p.addr else none
  let cap := !namesByte op || (captureAt s p.space p.addr).isSome
  let ext := (extOf s p).map (·.2)
  let c := cached s crest p.src p.tag
  (Ls.row (badFormat tc p) (.refuse p.src 0x11 0 0x03000400)).orElse <|
  (Ls.row (s.dev.devState == .baseCamp || s.dev.devState == .quiesced) (.refuse p.src 0x02 15 0)).orElse <|
  (Ls.row (modeOf s lp != 1) (.refuse p.src 0x13 0 0x03000410)).orElse <|
  (Ls.row (!epValid s lp) (.drop 0x03000408)).orElse <|
  (Ls.row (p.src != ep || p.comp != epComp s lp) (.refuse ep 0x13 0 0x03000410)).orElse <|
  (Ls.row (!compLive s k) (.refuse p.src 0x51 0 0)).orElse <|
  (Ls.row (conf s k && !macsecReq s lp) (.refuse p.src 0x52 0 0)).orElse <|
  (Ls.row (p.job == 0xFFFF || !(epJobs s lp).contains p.job || !((job.map fun j => j.comp == k).getD false))
    (.refuse p.src 0x13 0 0x03000410)).orElse <|
  (Ls.row sp.isNone (.refuse p.src 0x12 0 0x03000418)).orElse <|
  (Ls.row ((sp.map (·.comp != k)).getD false ||
      (rightOf op != 0 && !((job.map fun j => j.pairs.any fun q => q.1 == p.space && q.2 &&& rightOf op != 0).getD false)))
    (.refuse p.src 0x13 0 0x03000410)).orElse <|
  (Ls.row ((sp.map (·.shadow)).getD false) (.refuse p.src 0x02 15 0x0A000430)).orElse <|
  (Ls.row (fencedComp s k || (s.flt.second.lost && mirrorBit s k)) (.refuse p.src 0x02 15 0)).orElse <|
  (Ls.row (ring.isNone && !cap && ext.isNone) (.refuse p.src 0x12 0 0x03000418)).orElse <|
  (Ls.row ((ext.map (·.draining)).getD false) (.refuse p.src 0x14 0 0x03000420)).orElse <|
  (regionCheck s lp p).orElse <|
  (Ls.row ((ring.map fun r => (op == 0x02 && !(p.addr == r.offset + 8 && p.len == 8)) || isAtomic op).getD false)
    (.refuse p.src 0x13 0 0x03000410)).orElse <|
  (rcacheRow (if p.rtx && op != 0x01 then c else none)).orElse <|
  (Ls.row (p.rtx && op != 0x01 && s.xlt.reqs.any fun r => r.pkt.src == p.src && r.pkt.tag == p.tag) .discard).orElse <|
  (Ls.row (decide ((bucket s lp).fill ≤ 0)) (.refuse p.src 0x02 (12 + freeVal s % 4) 0x03000428)).orElse <|
  (Ls.row (trackerFull s crest) (.refuse p.src 0x02 12 0x03000430)).orElse <|
  Ls.row (isUpdate op && cacheFull s crest) (.refuse p.src 0x02 12 0x03000438)

/-- The response to a request that a row ends. -/
def lsRefuse (lp tc : Nat) (p : Kmt) (dst status load ctr : Nat) (s : State) : State :=
  let s := if ctr = 0 then s else count ctr s
  let s := useFree s
  if status = 0x02 then respondTo dst lp tc p status load [] false none s
  else respondTo dst lp tc p status (loadOf s lp none) [] false none (useFree s)

/-! ### Requests that pass -/

/-- What a FLUSH or PUBLISH waits for: the WRs and atomics that its SRC sent earlier to the space on the port (R116). -/
def flushSet (s : State) (lp : Nat) (p : Kmt) : List Nat :=
  (s.xlt.reqs.filter fun r => r.lp == lp && r.pkt.src == p.src && r.pkt.space == p.space &&
    (r.pkt.opcode == 0x02 || isAtomic r.pkt.opcode)).map (·.id)

/-- Key of a Crest's class in the AUTO measurement. -/
def combKey (crest tc : Nat) : Nat := 2 * crest + (if tc = 1 then 0 else 1)

/-- Is a measured window still open (R133 to R135)? -/
def vwinOpen (s : State) (v : VWin) : Bool :=
  decide (s.clock.clk < v.at_ + combWin s) && decide (v.n < combMax s) && (v.op != 0x01 || (findReq s v.id).isSome)

/-- Counts a joinable request in the AUTO measurement (R137). -/
def measure (r : Req) (s : State) : State :=
  let k := combKey r.crest r.tc
  let c := mgetD s.xlt.comb k {}
  let open_ := c.recent.filter (vwinOpen s)
  let same := fun v : VWin => v.op == r.pkt.opcode && v.space == r.pkt.space && v.addr == r.pkt.addr && v.len == r.pkt.len
  let c' : CombCount :=
    if open_.any same then
      { joinable := c.joinable + 1, joined := c.joined + 1, recent := modIf same (fun v => { v with n := v.n + 1 }) open_ }
    else
      { joinable := c.joinable + 1, joined := c.joined
        recent := open_ ++ [{ op := r.pkt.opcode, space := r.pkt.space, addr := r.pkt.addr, len := r.pkt.len, at_ := s.clock.clk, id := r.id }] }
  { s with xlt.comb := mset s.xlt.comb k c' }

/-- An update of overlapping bytes closes measured windows too. -/
def measureClose (r : Req) (n : Nat) (s : State) : State :=
  { s with xlt.comb := s.xlt.comb.map fun c => if c.1 / 2 = r.crest then
      (c.1, { c.2 with recent := c.2.recent.filter fun v => !(v.space == r.pkt.space && decide (v.addr < r.pkt.addr + n) &&
        decide (r.pkt.addr < v.addr + v.len) && !(v.op == r.pkt.opcode && v.addr == r.pkt.addr && v.len == r.pkt.len && joinable r.tc v.op)) })
      else c }

/-- Windows of a Crest whose WIN has passed close (R134, R135). -/
def closeDue (crest : Nat) (s : State) : State :=
  each (s.xlt.windows.filter fun w => w.crest == crest && w.isOpen && decide (w.at_ + combWin s ≤ s.clock.clk)) closeWindow s

/-- Sends a request's own memory operation. -/
def ownOp (r : Req) (x : Nat) (e : Extent) (s : State) : State :=
  match toMemory e x r.pkt r.lp r.tc r.crest [r] (.req r.id) s with
  | some s => s
  | none => tierFault 2 r.pkt.comp r.pkt.space (endReq r.id 0x21 [] none false false none s)

/-- Joins a combining window or opens one (R133 to R135). -/
def combine (r : Req) (x : Nat) (e : Extent) (s : State) : State :=
  let p := r.pkt
  match s.xlt.windows.find? fun w => w.isOpen && w.crest == r.crest && w.tc == r.tc && w.op == p.opcode && w.space == p.space &&
      w.addr == p.addr && w.len == p.len with
  | some w =>
    let s := count (if r.tc = 1 then 0x02000480 else 0x02000488) s
    let w' := { w with reqs := w.reqs ++ [r.id] }
    let s := { s with xlt.windows := modIf (·.id == w.id) (fun _ => w') s.xlt.windows }
    if combMax s ≤ w'.reqs.length then closeWindow w' s else s
  | none =>
    let (id, s) := newId s
    let w : Window := { id, crest := r.crest, tc := r.tc, op := p.opcode, space := p.space, addr := p.addr, len := p.len
                        at_ := s.clock.clk, reqs := [r.id] }
    let s := { s with xlt.windows := s.xlt.windows ++ [w] }
    if p.opcode = 0x01 then
      match toMemory e x p r.lp r.tc r.crest [r] (.window id) s with
      | some s => s
      | none => tierFault 2 p.comp p.space (endWindow w 0x21 [[]] none none s)
    else s

/-- An RD, WR or atomic that passed every check goes to its memory. -/
def memRequest (r : Req) (s : State) : State :=
  let p := r.pkt
  let op := p.opcode
  let n := atomWidth op p.len
  let s := closeDue r.crest s
  match ringAt s p.space p.addr with
  | some q =>
    if op = 0x01 then endReq r.id 0 (ringBytes q (p.addr - q.offset) p.len) none false false none s
    else
      let v := leVal (p.payload.take 8)
      if q.ci ≤ v ∧ v ≤ q.pi then
        endReq r.id 0 [] none false false none
          (setRing { q with ci := v, entries := q.entries.filter fun e => decide (v ≤ e.1) } s)
      else endReq r.id 0x11 [] none false false none s
  | none =>
    match extAt s p.space p.addr with
    | none =>
      let a := (captureAt s p.space p.addr).getD 0
      let mop : MemOp := if op = 0x01 then .read p.len else if op = 0x02 then .write (p.payload.take p.len) else .atomic op n p.payload
      (issueHbm a mop (.req r.id) none s).2
    | some (x, e) =>
      let s := if op = 0x01 then s
        else measureClose r n (closeOverlap r.crest p.space p.addr n
          ((s.xlt.windows.find? fun w => combOn s r.crest r.tc && joinable r.tc op && w.isOpen && w.crest == r.crest && w.tc == r.tc && w.op == op &&
            w.space == p.space && w.addr == p.addr && w.len == p.len).map (·.id)) s)
      let s := if joinable r.tc op then measure r s else s
      if joinable r.tc op && combOn s r.crest r.tc then combine r x e s else ownOp r x e s

/-- A request that passed every check executes. -/
def lsExecute (r : Req) (s : State) : State :=
  let p := r.pkt
  let op := p.opcode
  if op = 0x20 then settleXlt s
  else if op = 0x21 then
    match regionAt s p.space p.addr with
    | some (i, _) => addPub i (leVal (p.payload.take 8)) (.req r.id) s
    | none => s
  else if op = 0x35 then joinAgent r s
  else if op = 0x36 then leaveAgent r s
  else if isLineOp op then
    let apt := (aptOf s p.space).getD 64
    settleDir (lineRequest p.space (lineOf p.addr)
      { op, agent := (liveAgent s apt p.src).getD 0, whom := .req r.id, pkt := p, lp := r.lp, tc := r.tc, crest := r.crest } s)
  else memRequest r s

/-- Does an address meet an open tray intent of a takeover (Table 15-7)? Such a request waits. One that meets an open directory
transaction queues at its busy line. -/
def meetsIntent (s : State) (p : Kmt) : Bool :=
  s.flt.takeover && s.flt.intents.any fun i => !i.dir &&
    match extAt s p.space p.addr with
    | some (_, e) => !e.hbm && trayEp s e.tray == fld i.body 0 4 &&
        decide (extAddr e p.addr < fld i.body 16 8 + fld i.body 10 2) && decide (fld i.body 16 8 < extAddr e p.addr + max 1 p.len)
    | none => false

/-- A load/store or coherent request of an endpoint (R123, Table 4-3). -/
def loadStore (lp tc : Nat) (p : Kmt) (s : State) : State :=
  if !takesPackets s lp ∨ meetsIntent s p then s else
  let s := takeRx lp tc p s
  if p.rsp then s else
  match lsCheck s lp tc p with
  | .drop c => count c s
  | .refuse d st l c => lsRefuse lp tc p d st l c s
  | .cached c => respond lp tc p c.status c.data none false none (count 0x03000440 s)
  | .discard => s
  | .ok =>
    let crest := crestOf lp
    let s := takeTokens lp p.len s
    let s := if p.rtx then s else
      { s with xlt.cache := s.xlt.cache.filter fun d => !(d.crest == crest && d.src == p.src && d.tag == p.tag) }
    let (id, s) := newId s
    let r : Req := { id, lp, tc, pkt := p, crest, ext := (extOf s p).map (·.1), at_ := s.clock.clk
                     waits := if p.opcode = 0x20 ∨ p.opcode = 0x21 then flushSet s lp p else [] }
    settleXlt (lsExecute r { s with xlt.reqs := s.xlt.reqs ++ [r] })

/-! ### Messages (R125 to R127) -/

/-- Sends a message on toward its destination, with the link credit it holds. -/
def forwardTo (lp tc out : Nat) (p : Kmt) (credit : Nat) (s : State) : State :=
  enqueue { id := 0, inp := inPort (lp / 8), ilp := lp, tc, legs := [{ out := outPort (out / 8), lp := out }]
            cells := cellsOf (.kmt p), cargo := .kmt p, comp := p.comp, crest := crestOf lp, credit } s

/-- A message, its response, or an engine packet for another Talik is forwarded by DST (R125, R126, R190). -/
def forwardMsg (lp tc : Nat) (p : Kmt) (credit : Nat) (s : State) : State :=
  match routeOf s p.dst with
  | .drop =>
    let s := freeCredit lp tc credit s
    if p.rsp then s else answerSrc lp tc p 0x12 (count 0x03000418 s)
  | .trunk g =>
    match trunkChoice s g tc (trunkKey p tc) true with
    | none => dropTrunk lp tc p (freeCredit lp tc credit s)
    | some (l, moved) => forwardTo lp tc l p credit (if moved then count 0x02000400 s else s)
  | .port l =>
    if !p.rsp && modeOf s l == 1 && epValid s l && epComp s l != p.comp then
      answerSrc lp tc p 0x13 (count 0x03000410 (freeCredit lp tc credit s))
    else if live s l || (lport s l).st == 6 then forwardTo lp tc l p credit s
    else count 0x03000468 (freeCredit lp tc credit s)

/-- PUT, GET or SEND (R125, R126, R138). -/
def message (lp tc : Nat) (p : Kmt) (s : State) : State :=
  if !takesPackets s lp then s else
  let credit := rxCredit s lp tc p
  if p.rsp then s
  else if modeOf s lp = 2 then answerSrc lp tc p 0x13 (count 0x03000410 (takeRx lp tc p s))
  else if modeOf s lp = 1 then
    if !epValid s lp then count 0x03000408 (takeRx lp tc p s)
    else if p.src ≠ epId s lp ∨ p.comp ≠ epComp s lp then answerSrc lp tc p 0x13 (count 0x03000410 (takeRx lp tc p s))
    else if (bucket s lp).fill ≤ 0 then
      let l := 12 + freeVal s % 4
      useFree (retryLater lp tc p l (count 0x03000428 (takeRx lp tc p s)))
    else forwardMsg lp tc p credit (takeTokens lp p.len { s with rx := s.rx.erase { lp, tc, pkt := p, credit } })
  else forwardMsg lp tc p credit { s with rx := s.rx.erase { lp, tc, pkt := p, credit } }

/-- A response to a message of an endpoint is forwarded by DST (R125). -/
def msgResponse (lp tc : Nat) (p : Kmt) (s : State) : State :=
  if !takesPackets s lp ∨ !p.rsp then s
  else forwardMsg lp tc p (rxCredit s lp tc p) { s with rx := s.rx.erase { lp, tc, pkt := p, credit := rxCredit s lp tc p } }

/-! ### Windows, decisions and caches -/

/-- COMB_WINDOW_CLOSE: the window reaches WIN (R134, R135). -/
def combWindowClose (id : Nat) (s : State) : State :=
  match s.xlt.windows.find? (·.id == id) with
  | none => s
  | some w => if w.isOpen then settleXlt (closeWindow w (atLeast (w.at_ + combWin s) s)) else s

/-- One class's decision at the end of a measurement window: the pin, or the measured share (R31, R137). -/
def combDecide (crest tc : Nat) (s : State) : State :=
  let k := combKey crest tc
  let c := mgetD s.xlt.comb k {}
  let cfg := reg s 0x0200000C
  let mode := if tc = 1 then bits cfg 1 0 else bits cfg 3 2
  let now := bit s.xlt.combOn k
  let want := if mode = 1 then true
    else if mode = 2 then false
    else if c.joinable = 0 then now
    else if bits cfg 31 24 * c.joinable ≤ 256 * c.joined then true
    else if 256 * c.joined < bits cfg 23 16 * c.joinable then false
    else now
  let s := { s with xlt.comb := mset s.xlt.comb k { c with joinable := 0, joined := 0 } }
  if want != now then
    { s with xlt.combOn := s.xlt.combOn ^^^ 2 ^ k, xlt.combChanges := satAdd (2 ^ 24 - 1) s.xlt.combChanges 1 }
  else s

/-- COMB_DECISION: the end of a Crest's 10 µs measurement window (R137). -/
def combDecision (crest : Nat) (s : State) : State :=
  if !running s ∨ 4 ≤ crest then s
  else
    let s := atLeast (ceilDiv s.clock.clk 10000 * 10000) s
    combDecide crest 3 (combDecide crest 1 { s with xlt.combRun := s.xlt.combRun ||| 2 ^ crest })

/-- New effective rate of a port under AUTO (R138). -/
def newRate (s : State) (lp : Nat) : Nat :=
  let r := effRate s lp
  let used := poolUsed s (crestOf lp) * 100
  let hi := bits (reg s 0x03000004) 23 16 * poolSize s
  let lo := bits (reg s 0x03000004) 15 8 * poolSize s
  if hi < used then max (epRateMin s lp) (r - r / 8)
  else if used < lo then min (epRateMax s lp) (r + r / 8)
  else r

/-- RATE_ADJUST: the decision every 5 µs (R31, R138). In AUTO each binding takes its new rate; a written MODE comes into force. -/
def rateAdjust (s : State) : State :=
  if !running s then s else
  let s := atLeast (ceilDiv s.clock.clk 5000 * 5000) s
  let fixed := bit (reg s 0x03000004) 0
  let s := if fixed then s else
    each ((s.lports.map (·.1)).filter fun l => isLport s l && modeOf s l == 1 && epValid s l) (fun l s =>
      let r := newRate s l
      let b := bucket s l
      let s' := { s with xlt.buckets := mset s.xlt.buckets l { b with rate := r } }
      if r = effRate s l then s' else count 0x03000460 s') s
  { s with xlt.rateFixed := fixed, xlt.rateRun := true }

/-- REPLY_CACHE_EXPIRY: E2E_HOLD has passed (R142). -/
def replyCacheExpiry (crest src tag : Nat) (s : State) : State :=
  match s.xlt.cache.find? fun c => c.crest == crest && c.src == src && c.tag == tag with
  | none => s
  | some c =>
    let s := atLeast (c.at_ + e2eHold s) s
    { s with xlt.cache := s.xlt.cache.filter (· != c) }

/-! ### Meanings -/

def execRd (lp tc : Nat) (p : Kmt) (s : State) : Host.Outcome State Fault Refusal :=
  .next (if p.opcode = 0x01 then loadStore lp tc p s else s)
def execWr (lp tc : Nat) (p : Kmt) (s : State) : Host.Outcome State Fault Refusal :=
  .next (if p.opcode = 0x02 then loadStore lp tc p s else s)
def execFadd (lp tc : Nat) (p : Kmt) (s : State) : Host.Outcome State Fault Refusal :=
  .next (if p.opcode = 0x10 then loadStore lp tc p s else s)
def execFand (lp tc : Nat) (p : Kmt) (s : State) : Host.Outcome State Fault Refusal :=
  .next (if p.opcode = 0x11 then loadStore lp tc p s else s)
def execForr (lp tc : Nat) (p : Kmt) (s : State) : Host.Outcome State Fault Refusal :=
  .next (if p.opcode = 0x12 then loadStore lp tc p s else s)
def execFxor (lp tc : Nat) (p : Kmt) (s : State) : Host.Outcome State Fault Refusal :=
  .next (if p.opcode = 0x13 then loadStore lp tc p s else s)
def execFmaxs (lp tc : Nat) (p : Kmt) (s : State) : Host.Outcome State Fault Refusal :=
  .next (if p.opcode = 0x14 then loadStore lp tc p s else s)
def execFmins (lp tc : Nat) (p : Kmt) (s : State) : Host.Outcome State Fault Refusal :=
  .next (if p.opcode = 0x15 then loadStore lp tc p s else s)
def execSwap (lp tc : Nat) (p : Kmt) (s : State) : Host.Outcome State Fault Refusal :=
  .next (if p.opcode = 0x16 then loadStore lp tc p s else s)
def execCas (lp tc : Nat) (p : Kmt) (s : State) : Host.Outcome State Fault Refusal :=
  .next (if p.opcode = 0x17 then loadStore lp tc p s else s)
def execFlush (lp tc : Nat) (p : Kmt) (s : State) : Host.Outcome State Fault Refusal :=
  .next (if p.opcode = 0x20 then loadStore lp tc p s else s)
def execPublish (lp tc : Nat) (p : Kmt) (s : State) : Host.Outcome State Fault Refusal :=
  .next (if p.opcode = 0x21 then loadStore lp tc p s else s)
def execPut (lp tc : Nat) (p : Kmt) (s : State) : Host.Outcome State Fault Refusal :=
  .next (if p.opcode = 0x40 then message lp tc p s else s)
def execGet (lp tc : Nat) (p : Kmt) (s : State) : Host.Outcome State Fault Refusal :=
  .next (if p.opcode = 0x41 then message lp tc p s else s)
def execSend (lp tc : Nat) (p : Kmt) (s : State) : Host.Outcome State Fault Refusal :=
  .next (if p.opcode = 0x42 then message lp tc p s else s)
def execCombWindowClose (id : Nat) (s : State) : Host.Outcome State Fault Refusal := .next (combWindowClose id s)
def execCombDecision (crest : Nat) (s : State) : Host.Outcome State Fault Refusal := .next (combDecision crest s)
def execRateAdjust (s : State) : Host.Outcome State Fault Refusal := .next (rateAdjust s)
def execReplyCacheExpiry (crest src tag : Nat) (s : State) : Host.Outcome State Fault Refusal := .next (replyCacheExpiry crest src tag s)
def execCrdS (lp tc : Nat) (p : Kmt) (s : State) : Host.Outcome State Fault Refusal :=
  .next (if p.opcode = 0x30 then loadStore lp tc p s else s)
def execCrdX (lp tc : Nat) (p : Kmt) (s : State) : Host.Outcome State Fault Refusal :=
  .next (if p.opcode = 0x31 then loadStore lp tc p s else s)
def execCupg (lp tc : Nat) (p : Kmt) (s : State) : Host.Outcome State Fault Refusal :=
  .next (if p.opcode = 0x32 then loadStore lp tc p s else s)
def execCwb (lp tc : Nat) (p : Kmt) (s : State) : Host.Outcome State Fault Refusal :=
  .next (if p.opcode = 0x33 then loadStore lp tc p s else s)
def execCevict (lp tc : Nat) (p : Kmt) (s : State) : Host.Outcome State Fault Refusal :=
  .next (if p.opcode = 0x34 then loadStore lp tc p s else s)
def execCjoin (lp tc : Nat) (p : Kmt) (s : State) : Host.Outcome State Fault Refusal :=
  .next (if p.opcode = 0x35 then loadStore lp tc p s else s)
def execCleave (lp tc : Nat) (p : Kmt) (s : State) : Host.Outcome State Fault Refusal :=
  .next (if p.opcode = 0x36 then loadStore lp tc p s else s)

end Sys2Proof.Machine
end

