-- ==== Sys2Proof/Machine/CmdCore.lean ====
section
/-! DEFINITION. How a command of a queue starts and ends: the checks of Table 12-5, the replies, the CONFIG records of
R422. Each command's own effect stands in its family's file. -/

namespace Sys2Proof.Machine

/-! ### Parameters -/

/-- Bytes of a command's parameter area. -/
def pb (c : CmdRec) (o : Nat) : Nat := byteAt c.params o
def pf (c : CmdRec) (o n : Nat) : Nat := fld c.params o n

/-- Opcodes of Table 12-4. -/
def cmdKnown (op : Nat) : Bool :=
  [0x01, 0x02, 0x03, 0x10, 0x11, 0x12, 0x13, 0x20, 0x21, 0x30, 0x31, 0x32, 0x40, 0x41, 0x42, 0x43, 0x50, 0x51, 0x52, 0x60, 0x61,
   0x62, 0x63, 0x64, 0x70, 0x71, 0x72].contains op

/-- Commands of sources with OPER only (Table 12-4). -/
def cmdOper (op : Nat) : Bool :=
  [0x02, 0x03, 0x50, 0x51, 0x52, 0x60, 0x61, 0x62, 0x63, 0x64].contains op

/-- Commands that BASE_CAMP permits (Table 12-5). -/
def cmdBase (op : Nat) : Bool := [0x01, 0x02, 0x03, 0x70, 0x72, 0x50, 0x10, 0x12, 0x13].contains op

/-- Long commands (Table 12-4). -/
def cmdLong (c : CmdRec) : Bool :=
  [0x11, 0x21, 0x51, 0x52, 0x60, 0x64].contains c.opcode || (c.opcode == 0x10 && pb c 0 == 5) ||
  (c.opcode == 0x41 && (pb c 0 == 1 || pb c 0 == 3 || pb c 0 == 4))

/-- Commands mirrored by a CONFIG record as they start (R422); TABLE_PUBLISH sends its record once it has read its table
record. -/
def cmdMirrored (op : Nat) : Bool := [0x10, 0x12, 0x13, 0x11, 0x43].contains op

/-- Is there a row of the command table that starts this command? The others are answered at intake. -/
def hasRow (c : CmdRec) : Bool :=
  cmdKnown c.opcode &&
  (if c.opcode = 0x10 then decide (1 ≤ pb c 0) && decide (pb c 0 ≤ 7)
   else if c.opcode = 0x20 then pb c 0 == 1 || pb c 0 == 2
   else if c.opcode = 0x41 then decide (1 ≤ pb c 0) && decide (pb c 0 ≤ 4)
   else if c.opcode = 0x71 then decide (1 ≤ pb c 0) && decide (pb c 0 ≤ 3)
   else true)

/-- PARAM_LEN that the opcode needs (Tables 12-4, 12-6 to 12-8, R188). -/
def paramLenOk (c : CmdRec) : Bool :=
  let n := c.params.length
  match c.opcode with
  | 0x01 => n == 0
  | 0x02 => n == 8
  | 0x03 =>
    let k := pf c 4 4
    n == 8 + (k + 1) / 2 * 8 && k != 0
  | 0x10 => n == 64
  | 0x11 => n == 16
  | 0x12 => n == 16
  | 0x13 => n == 8
  | 0x20 => decide (8 ≤ n) && n == 8 + (pb c 2 + 7) / 8 * 8
  | 0x21 => n == 8
  | 0x30 => decide (64 ≤ n) && n == 64 + pf c 12 2
  | 0x31 => decide (64 ≤ n) && n == 64 + pf c 12 2
  | 0x32 => decide (64 ≤ n) && n == 64 + pf c 12 2
  | 0x40 => n == 128
  | 0x41 => n == 16
  | 0x42 => n == 16
  | 0x43 => n == 24
  | 0x50 => n == 40
  | 0x51 => n == 8
  | 0x52 => n == 8
  | 0x60 => n == 8
  | 0x61 => n == 0
  | 0x62 => n == 8
  | 0x63 => n == 8
  | 0x64 => n == 0
  | 0x70 => n == 8
  | 0x71 => n == 24
  | 0x72 => n == 8
  | _ => false

/-- No reserved field or encoding in the parameters (Tables 12-4, 12-6 to 12-8; R5). A descriptor's are its own chapter's. -/
def paramsOk (c : CmdRec) : Bool :=
  let b := pb c
  let f := pf c
  match c.opcode with
  | 0x02 => f 0 4 % 4 == 0 && decide (1 ≤ f 4 4) && decide (f 4 4 ≤ 64)
  | 0x03 => f 0 4 % 4 == 0 && zeroAt c.params (8 + 4 * f 4 4) 8
  | 0x10 =>
    decide (1 ≤ b 0) && decide (b 0 ≤ 7) && decide (b 1 < 8) && decide (f 2 2 < 1024) && decide (f 8 8 < 2 ^ 46) &&
    decide (f 16 8 < 2 ^ 46) && decide (f 24 8 < 2 ^ 46) && decide (f 32 2 < 1024) && zeroAt c.params 34 30 &&
    (b 0 != 3 || (decide (21 ≤ b 4) && decide (b 4 ≤ 30))) &&
    (b 0 != 4 || (decide (16 ≤ b 4) && decide (b 4 ≤ 46) && decide (b 5 ≤ 2))) &&
    (f 16 8 == 0 || (b 0 == 3 && !bit (b 1) 0)) &&
    (b 0 != 6 || (decide (6 ≤ b 4) && decide (b 4 ≤ 12) && decide (6 ≤ b 7) && decide (b 7 ≤ 20)))
  | 0x11 => decide (f 0 2 < 1024) && zeroAt c.params 2 6 && decide (f 8 8 < 2 ^ 46)
  | 0x12 => zeroAt c.params 2 2 && (List.range 6).all fun k => decide (f (4 + 2 * k) 2 < 2 ^ 13)
  | 0x13 => zeroAt c.params 2 6
  | 0x20 =>
    decide (1 ≤ b 0) && decide (b 0 ≤ 2) && decide (b 1 ≤ 1) && zeroAt c.params 4 4 && zeroAt c.params (8 + b 2) 8 &&
    (if b 0 = 1 then decide (2 ≤ b 2) && decide (b 2 ≤ 64) && b 3 == 0 else b 2 == 0)
  | 0x21 => decide (b 1 ≤ 1) && (if b 1 = 0 then decide (b 2 ≤ 3) else decide (b 2 ≤ 1)) && decide (b 3 ≤ 1) && zeroAt c.params 4 4
  | 0x41 =>
    decide (1 ≤ b 0) && decide (b 0 ≤ 4) && decide (b 1 < 16) && decide (f 2 2 < 1024) && decide (f 8 8 < 2 ^ 46) &&
    (b 0 != 1 || f 8 8 % 64 == 0)
  | 0x42 => decide (f 0 2 < 1024) && zeroAt c.params 2 6 && f 8 8 % 8 == 0 && decide (f 8 8 < 2 ^ 46)
  | 0x43 => decide (f 0 2 < 1024) && zeroAt c.params 2 6 && decide (f 8 8 < 2 ^ 46)
  | 0x50 => decide (b 0 < 64) && zeroAt c.params 2 2 && zeroAt c.params 12 4 && zeroAt c.params 36 4
  | 0x51 => decide (b 0 < 64) && zeroAt c.params 1 7
  | 0x52 => decide (b 0 < 64) && zeroAt c.params 1 7
  | 0x60 => zeroAt c.params 4 4
  | 0x62 => decide (f 0 2 < 1024) && zeroAt c.params 2 6
  | 0x63 => decide (f 0 4 < 2 ^ 18)
  | 0x70 => decide (1 ≤ b 0) && decide (b 0 ≤ 5) && decide (b 1 ≤ 1) && zeroAt c.params 4 4
  | 0x71 =>
    decide (1 ≤ b 0) && decide (b 0 ≤ 3) && decide (b 1 < 8) && decide (b 3 ≤ 1) && decide (f 4 4 < 2 ^ 24) &&
    decide (f 8 2 < 1024) && zeroAt c.params 11 5 && decide (f 16 8 < 2 ^ 46) &&
    (b 0 != 1 || (decide (21 ≤ b 10) && decide (b 10 ≤ 32) && f 16 8 % pageSize == 0 && f 4 4 != 0))
  | 0x72 => b 0 == 1 && decide (b 1 < 64) && zeroAt c.params 2 6
  | _ => true

/-- Opcodes that carry a descriptor, and the KIND each takes (Table 12-4). -/
def descKind : Nat → Option Nat
  | 0x30 => some 1
  | 0x31 => some 2
  | 0x32 => some 3
  | _ => none

/-- The checks at start of Table 12-5, in order: none when the opcode's own checks follow. Status and LOAD. -/
def startCheck (s : State) (c : CmdRec) : Option (Nat × Nat) :=
  if (comp s c.comp).st = 2 then some (0x02, 15)
  else if !cmdKnown c.opcode then some (0x10, 0)
  else if cmdOper c.opcode && !c.oper then some (0x13, 0)
  else if s.dev.devState = .baseCamp ∧ !cmdBase c.opcode then some (0x02, 15)
  else if s.dev.devState = .seconding ∧ !c.oper then some (0x02, 15)
  else if !c.hdrOk ∨ !paramLenOk c ∨ !paramsOk c then some (0x11, 0)
  else if c.job ≠ 0xFFFF ∧ !(((mget s.xlt.jobs c.job).map fun j => j.comp == c.comp && !j.shadow).getD false) then some (0x11, 0)
  else if cmdLong c ∧ (findRing s c.comp c.ring).isNone then some (0x11, 0)
  else if (c.opcode = 0x30 ∨ c.opcode = 0x31 ∨ c.opcode = 0x32 ∨ c.opcode = 0x40) ∧ pb c 3 ≠ c.comp then some (0x13, 0)
  else match descKind c.opcode with
    | some k => if pb c 0 = k then none else some (0x11, 0)
    | none => none

/-! ### Start and end -/

/-- The command that a queue starts next: the one at NEXT, once a fence is satisfied (R346). -/
def startable (s : State) (k q : Nat) : Option CmdRec :=
  let u := queue s k q
  if u.busy.isSome then none else
  (u.waiting.find? (·.cseq == u.next)).bind fun c => if bit c.flags 2 && oldest u != c.cseq then none else some c

/-- Takes a command out of intake: it has started (R346). -/
def takeStart (c : CmdRec) (s : State) : State :=
  press (count 0x08000428 (setQueue c.comp c.queue (fun q =>
    { q with waiting := q.waiting.filter (·.cseq != c.cseq), next := (q.next + 1) % 2 ^ 32 }) s))

/-- Replies and, for a command that completes, saves the reply (R344, Table 12-3). -/
def reply (c : CmdRec) (status load : Nat) (params : List Byte) (s : State) : State :=
  saveReply c status load params (sendReply c status load params s)

/-- The reply to a command whose checks at start have ended it; CMD_DENIED counts DENIED (Table 12-14). -/
def replyAtStart (c : CmdRec) (status load : Nat) (params : List Byte) (s : State) : State :=
  reply c status load params (if status = 0x13 then count 0x08000418 s else s)

/-- What a started command came out as (R346). -/
def applyRes (c : CmdRec) (r : CmdRes) (s : State) : State :=
  match r with
  | .done st ps load => replyAtStart c st load ps s
  | .pending what ps =>
    let s := setQueue c.comp c.queue (fun q => { q with running := q.running ++ [c.cseq] }) s
    reply c 1 0 ps { s with cmd.longs := s.cmd.longs ++ [{ cmd := c, what }] }
  | .held => setQueue c.comp c.queue (fun q => { q with busy := some c }) s

/-- CONFIG record (Table 15-4). -/
def configRec (c : CmdRec) (extra : List Byte) : LogRec :=
  { rtype := 1, comp := c.comp, body := le 1 c.opcode ++ zeros 7 ++ c.params ++ extra }

/-- A command's parameter area as its CONFIG record carries it (log entry 60): a tray extent names its tray by the endpoint ID, in
bytes 36 to 39 (R422); SPACE_CREATE names the space it takes, from the reply parameters. -/
def configParams (s : State) (c : CmdRec) (ps : List Byte) : CmdRec :=
  if c.opcode = 0x10 ∧ pb c 0 = 3 ∧ !bit (pb c 1) 0 then
    { c with params := c.params.take 36 ++ le 4 (trayEp s (pb c 6)) ++ c.params.drop 40 }
  else if c.opcode = 0x10 ∧ pb c 0 = 1 then { c with params := c.params.take 2 ++ ps.take 2 ++ c.params.drop 4 }
  else c

/-- The body runs, or on a mirrored composition waits for the Partner's answer to its CONFIG record (R422). A command that the
body would refuse ends with that status and sends no record. -/
def runBody (c : CmdRec) (extra : List Byte) (body : CmdRec → State → CmdRes × State) (s : State) : State :=
  if cmdMirrored c.opcode ∧ logging s c.comp then
    let send := fun (ps : List Byte) =>
      let (s, g) := logRec 0 (configRec (configParams s c ps) extra) s
      match g with
      | some g => hold g (.cmd c) (applyRes c .held s)
      | none => applyRes c (body c s).1 (body c s).2
    match (body c s).1 with
    | .done st ps load => if st ≠ 0 then applyRes c (.done st ps load) (body c s).2 else send ps
    | _ => send []
  else applyRes c (body c s).1 (body c s).2

/-- Starts a command: the checks at start, then its body. -/
def startCmd (c : CmdRec) (extra : List Byte) (body : CmdRec → State → CmdRes × State) (s : State) : State :=
  let s := takeStart c s
  match startCheck s c with
  | some (st, load) => replyAtStart c st load [] s
  | none => runBody c extra body s

/-- Commands at the head of their queues that no row starts are answered (reserved opcodes and actions). -/
def settleQueues : Nat → State → State
  | 0, s => s
  | n + 1, s =>
    match s.cmd.queues.findSome? fun q => (startable s (q.1 / 4) (q.1 % 4)).bind fun c => if hasRow c then none else some c with
    | none => s
    | some c => settleQueues n (startCmd c [] (fun _ s => (.done 0x11, s)) s)

/-- Does the command path take commands (Table 12-10)? -/
def cmdPathUp (s : State) : Bool := running s && !s.dev.coresDown

/-- A row of the command table starts the command at the head of a queue, if that command is the row's. -/
def runCmd (k q op : Nat) (act : Nat → Bool) (body : CmdRec → State → CmdRes × State) (s : State) : State :=
  if !cmdPathUp s then s else
  match startable s k q with
  | none => s
  | some c =>
    if c.opcode = op ∧ hasRow c ∧ act (pb c 0) then
      let s := startCmd c [] body s
      settleQueues (intake s) s
    else s

/-- A row without an action byte. -/
def anyAct (_ : Nat) : Bool := true

/-- OK with no parameters. -/
def okRes : CmdRes := .done 0
/-- OK with reply parameters. -/
def okWith (params : List Byte) : CmdRes := .done 0 params
/-- A refusal. -/
def bad (st : Nat) (s : State) : CmdRes × State := (.done st, s)
/-- RETRY_LATER with a LOAD. -/
def retryRes (load : Nat) (s : State) : CmdRes × State := (.done 0x02 [] load, s)
/-- QUOTA_EXCEEDED, counted (R352). -/
def noQuota (s : State) : CmdRes × State := (.done 0x15, quotaRej s)

end Sys2Proof.Machine
end

