-- ==== Sys2Proof/Machine/Flags.lean ====
section
/-! DEFINITION. Number formats, FP32 arithmetic and the OVF, NAN and SAT flags of results (R194 to R200, R252, R268, R290). A
finite value is exact, a whole number times a power of two, until the one rounding that the rules name. -/

namespace Sys2Proof.Machine

/-- A value of a floating-point format: NaN, an infinity, or ±m·2^e exactly. -/
inductive FV where
  | nan
  | inf (neg : Bool)
  | fin (neg : Bool) (m : Nat) (e : Int)
  deriving DecidableEq, Repr

/-- Flags of Table 6-5. -/
def flOvf : Nat := 1
def flNan : Nat := 2
def flSat : Nat := 4
def flCnt : Nat := 8

/-- A floating-point element: mantissa and exponent widths, bias, magnitude bits of its largest finite value, of its infinity
(if it has one) and of its canonical NaN (if it has one). -/
structure Fmt where
  mb : Nat
  eb : Nat
  bias : Nat
  top : Nat
  inf : Option Nat
  nan : Option Nat
  deriving DecidableEq, Repr

def fp32 : Fmt := ⟨23, 8, 127, 0x7F7FFFFF, some 0x7F800000, some 0x7FC00000⟩
def bf16 : Fmt := ⟨7, 8, 127, 0x7F7F, some 0x7F80, some 0x7FC0⟩
def fp16 : Fmt := ⟨10, 5, 15, 0x7BFF, some 0x7C00, some 0x7E00⟩
def e4m3 : Fmt := ⟨3, 4, 7, 0x7E, none, some 0x7F⟩
def e5m2 : Fmt := ⟨2, 5, 15, 0x7B, some 0x7C, some 0x7E⟩
def e3m2 : Fmt := ⟨2, 3, 3, 0x1F, none, none⟩
def e2m3 : Fmt := ⟨3, 2, 1, 0x1F, none, none⟩
def e2m1 : Fmt := ⟨1, 2, 1, 0x07, none, none⟩

/-- Element format of a code of Table 6-7; FP32 for the codes that are no floating-point format. -/
def fmtOf : Nat → Fmt
  | 0x02 => bf16
  | 0x03 => fp16
  | 0x04 => e4m3
  | 0x05 => e5m2
  | 0x06 => e4m3
  | 0x07 => e5m2
  | 0x08 => e3m2
  | 0x09 => e2m3
  | 0x0A => e2m1
  | _ => fp32

/-- Is the code an element format that a descriptor may name (R194)? -/
def fmtKnown (c : Nat) : Bool := decide (1 ≤ c) && decide (c ≤ 0x0C)
def fmtInt (c : Nat) : Bool := c == 0x0B || c == 0x0C || c == 0x0E
def fmtMx (c : Nat) : Bool := decide (0x06 ≤ c) && decide (c ≤ 0x0A)

/-- Bits per element. -/
def fmtBits (c : Nat) : Nat :=
  if c = 0x0D ∨ c = 0x0E then 64 else if c = 0x0B then 8 else if c = 0x0C then 32
  else let f := fmtOf c; f.mb + f.eb + 1

/-- Bytes of an MX block: the scale byte and 32 elements (R195). -/
def mxBytes (c : Nat) : Nat := 1 + 4 * fmtBits c

/-- Bytes that `n` elements take; an MX format takes whole blocks (R195, R214). -/
def dataLen (c n : Nat) : Nat := if fmtMx c then ceilDiv n 32 * mxBytes c else n * (fmtBits c / 8)

/-- The value of an element's bits: exact (R196). -/
def decodeElem (f : Fmt) (v : Nat) : FV :=
  let mag := v % 2 ^ (f.mb + f.eb)
  let neg := bit v (f.mb + f.eb)
  let ef := mag / 2 ^ f.mb
  let m := mag % 2 ^ f.mb
  if mag ≤ f.top then
    (if ef = 0 then .fin neg m (1 - (f.bias : Int) - f.mb) else .fin neg (2 ^ f.mb + m) ((ef : Int) - f.bias - f.mb))
  else if f.inf = some mag then .inf neg else .nan

/-- Shift right by `d` with rounding to nearest, ties to even. -/
def rneShift (m d : Nat) : Nat :=
  let n := m >>> d
  let r := m % 2 ^ d
  if d = 0 then m else if r * 2 > 2 ^ d ∨ (r * 2 = 2 ^ d ∧ n % 2 = 1) then n + 1 else n

/-- ⌊log₂ (m·2^e)⌋. -/
def floorLog (m : Nat) (e : Int) : Int := (Nat.log2 m : Int) + e

/-- Magnitude bits of m·2^e rounded to nearest even into a format, as if its exponent had no upper end (R197). -/
def roundMag (f : Fmt) (m : Nat) (e : Int) : Nat :=
  if m = 0 then 0 else
  let q := max (floorLog m e - f.mb) (1 - (f.bias : Int) - f.mb)
  let n := if q ≤ e then m <<< (e - q).toNat else rneShift m (q - e).toNat
  if n < 2 ^ f.mb then n else (q + f.mb + f.bias).toNat * 2 ^ f.mb + (n - 2 ^ f.mb)

/-- Sign bit of a format. -/
def signBit (f : Fmt) (neg : Bool) : Nat := if neg then 2 ^ (f.mb + f.eb) else 0

/-- Bits of a value in a format, and flags (R197). `sat`: an overflow or infinity saturates (FP8). -/
def encodeElem (f : Fmt) (sat : Bool) (v : FV) : Nat × Nat :=
  let big := fun neg => signBit f neg + (if sat then f.top else f.inf.getD f.top)
  match v with
  | .nan => (f.nan.getD 0, flNan)
  | .inf neg => (big neg, flOvf)
  | .fin neg m e =>
    let r := roundMag f m e
    if r ≤ f.top then (signBit f neg + r, 0) else (big neg, flOvf)

/-! ### FP32 values as 32-bit patterns -/

/-- Value of an FP32 pattern. -/
def f32val (b : Nat) : FV := decodeElem fp32 b

/-- A value rounded once into FP32: pattern, and whether a finite value became an infinity. -/
def f32of (v : FV) : Nat × Bool :=
  match v with
  | .nan => (0x7FC00000, false)
  | .inf neg => (signBit fp32 neg + 0x7F800000, false)
  | .fin neg m e =>
    let r := roundMag fp32 m e
    if r ≤ fp32.top then (signBit fp32 neg + r, false) else (signBit fp32 neg + 0x7F800000, true)

/-- The negated value. -/
def FV.neg : FV → FV
  | .nan => .nan
  | .inf n => .inf (!n)
  | .fin n m e => .fin (!n) m e

/-- Exact sum; opposite infinities give NaN (R197); a zero sum of unlike signs is positive. -/
def FV.add : FV → FV → FV
  | .nan, _ => .nan
  | _, .nan => .nan
  | .inf a, .inf b => if a = b then .inf a else .nan
  | .inf a, .fin _ _ _ => .inf a
  | .fin _ _ _, .inf b => .inf b
  | .fin a m e, .fin b n g =>
    let k := min e g
    let x : Int := ((m <<< (e - k).toNat : Nat) : Int)
    let y : Int := ((n <<< (g - k).toNat : Nat) : Int)
    let z : Int := (if a then -x else x) + (if b then -y else y)
    if z = 0 then .fin (a && b) 0 k else .fin (decide (z < 0)) z.natAbs k

/-- Exact product; zero times an infinity is NaN. -/
def FV.mul : FV → FV → FV
  | .nan, _ => .nan
  | _, .nan => .nan
  | .inf a, .inf b => .inf (a != b)
  | .inf a, .fin b m _ => if m = 0 then .nan else .inf (a != b)
  | .fin a m _, .inf b => if m = 0 then .nan else .inf (a != b)
  | .fin a m e, .fin b n g => .fin (a != b) (m * n) (e + g)

/-- Value divided by a whole number above zero, exact to far below the last FP32 place, with a sticky bit. -/
def FV.divNat (v : FV) (d : Nat) : FV :=
  match v with
  | .fin a m e =>
    let k := 128
    let x := m <<< k
    .fin a (2 * (x / d) + (if x % d = 0 then 0 else 1)) (e - k - 1)
  | v => v

/-- Is the value finite? -/
def FV.isFin : FV → Bool
  | .fin _ _ _ => true
  | _ => false

def FV.isNan (v : FV) : Bool := v == .nan

/-- a < b for values that are no NaN. -/
def FV.lt : FV → FV → Bool
  | .inf a, .inf b => a && !b
  | .inf a, .fin _ _ _ => a
  | .fin _ _ _, .inf b => !b
  | .fin a m e, .fin b n g =>
    let k := min e g
    let x : Int := ((m <<< (e - k).toNat : Nat) : Int)
    let y : Int := ((n <<< (g - k).toNat : Nat) : Int)
    decide ((if a then -x else x) < (if b then -y else y))
  | _, _ => false

/-- One FP32 operation on patterns: result, and OVF when finite operands give an infinity. -/
def f32op (op : FV → FV → FV) (a b : Nat) : Nat × Nat :=
  let (r, o) := f32of (op (f32val a) (f32val b))
  (r, if o then flOvf else 0)

def f32add (a b : Nat) : Nat × Nat := f32op FV.add a b
def f32sub (a b : Nat) : Nat × Nat := f32op (fun x y => x.add y.neg) a b
def f32mul (a b : Nat) : Nat × Nat := f32op FV.mul a b

/-! ### Accumulators (R199, R200, R209): an FP32 pattern, a (sum, error) pair, or a 64-bit two's complement value -/

/-- How a descriptor accumulates: 0 one FP32 value, 1 a compensated pair, 2 a 64-bit whole number. -/
def accMode (inFmt : Nat) (comp sum : Bool) : Nat := if fmtInt inFmt then 2 else if comp && sum then 1 else 0

/-- One compensated fold (R199): s, c and x give the new pair and OVF. -/
def compFold (s c x : Nat) : (Nat × Nat) × Nat :=
  let (t, f) := f32add s x
  if (f32val t).isFin then
    let z := (f32sub t s).1
    let e := (f32add (f32sub s (f32sub t z).1).1 (f32sub x z).1).1
    ((t, (f32add c e).1), f)
  else ((t, 0), f)

/-- The operators of R208 on two 64-bit values. -/
def intFold (op a b : Nat) : Nat :=
  match op with
  | 1 => (a + b) % 2 ^ 64
  | 2 => if sgn 64 a < sgn 64 b then b else a
  | 3 => if sgn 64 b < sgn 64 a then b else a
  | 4 => a &&& b
  | 5 => a ||| b
  | 6 => a ^^^ b
  | _ => b

/-- MAX and MIN of decoded FP32 values; a NaN makes the result NaN (R209). -/
def f32pick (max : Bool) (a b : Nat) : Nat :=
  let x := f32val a
  let y := f32val b
  if x.isNan || y.isNan then 0x7FC00000
  else if (if max then x.lt y else y.lt x) then b else a

/-- Folds an accumulator into another; an accumulator that holds nothing takes the value (R199, R200, R209). -/
def accFold (mode op : Nat) (acc : Option (Nat × Nat)) (x : Nat × Nat) : (Nat × Nat) × Nat :=
  match acc with
  | none => (x, 0)
  | some a =>
    if mode = 2 then ((intFold op a.1 x.1, 0), 0)
    else if op = 2 then ((f32pick true a.1 x.1, 0), 0)
    else if op = 3 then ((f32pick false a.1 x.1, 0), 0)
    else if op ≠ 1 then (x, 0)
    else if mode = 1 then
      let (p, f) := compFold a.1 a.2 x.1
      if (f32val p.1).isFin then ((p.1, (f32add p.2 x.2).1), f) else (p, f)
    else
      let (r, f) := f32add a.1 x.1
      ((r, 0), f)

/-- The value that an accumulator outputs: s, or s + c exactly, before the one rounding into OUT_FMT (R199). -/
def accVal (mode : Nat) (a : Nat × Nat) : FV :=
  if mode = 1 ∧ (f32val a.1).isFin then (f32val a.1).add (f32val a.2) else f32val a.1

/-! ### Unpacking and packing -/

/-- Element i of elements packed from bit 0 of the first byte upward (R195). -/
def elemAt (bs : List Byte) (w i : Nat) : Nat :=
  let lo := i * w
  (fld bs (lo / 8) ((lo % 8 + w + 7) / 8)) >>> (lo % 8) % 2 ^ w

/-- Packs elements of `w` bits. -/
def packBits (w : Nat) (vs : List Nat) : List Byte :=
  le (ceilDiv (vs.length * w) 8) (vs.foldr (fun v acc => acc * 2 ^ w + v % 2 ^ w) 0)

/-- Decodes element i of data to FP32, with OVF for an MX product beyond the range (R196). -/
def decodeF (c : Nat) (bs : List Byte) (i : Nat) : Nat × Nat :=
  let w := fmtBits c
  if fmtMx c then
    let b := slice bs (i / 32 * mxBytes c) (mxBytes c)
    let sc := byteAt b 0
    if sc = 0xFF then (0x7FC00000, 0) else
    let v := decodeElem (fmtOf c) (elemAt (b.drop 1) w (i % 32))
    let (r, o) := f32of (v.mul (.fin false 1 ((sc : Int) - 127)))
    (r, if o then flOvf else 0)
  else ((f32of (decodeElem (fmtOf c) (elemAt bs w i))).1, 0)

/-- Decodes element i of data into an accumulator's form. -/
def decodeAcc (c : Nat) (bs : List Byte) (i : Nat) : (Nat × Nat) × Nat :=
  if fmtInt c then
    let w := fmtBits c
    ((unsgn 64 (sgn w (elemAt bs w i)), 0), 0)
  else if c = 0x0D then ((fld bs (8 * i) 4, fld bs (8 * i + 4) 4), 0)
  else
    let (r, f) := decodeF c bs i
    ((r, 0), f)

/-- A partial's element bytes: FP32, FP32X2 or INT64 (Table 7-4). -/
def packPartial (mode : Nat) (a : Nat × Nat) : List Byte :=
  if mode = 2 then le 8 a.1 else if mode = 1 then le 4 a.1 ++ le 4 a.2 else le 4 a.1

/-- Format code of a partial (Table 7-4). -/
def partialFmt (mode : Nat) : Nat := if mode = 2 then 0x0E else if mode = 1 then 0x0D else 0x01

/-- Largest exponent of an element format (R198). -/
def emaxOf (c : Nat) : Int := if c = 0x06 then 8 else if c = 0x07 then 15 else if c = 0x08 then 4 else 2

/-- Magnitude compared: a < b for finite values. -/
def magLt (a b : FV) : Bool :=
  match a, b with
  | .fin _ m e, .fin _ n g => FV.lt (.fin false m e) (.fin false n g)
  | _, _ => false

/-- Shared exponent X of an MX block (R198): none when a NaN is in it. -/
def mxScale (c : Nat) (vs : List FV) : Option Int :=
  if vs.any (·.isNan) then none
  else
    let m := vs.foldl (fun a v => if magLt a v then v else a) (.fin false 0 0)
    match m with
    | .fin _ (k + 1) e => some (max (-127) (min 127 (floorLog (k + 1) e - emaxOf c)))
    | _ => if vs.any (fun v => !v.isFin) then some 127 else some 0

/-- One MX block of up to 32 values, and flags (R197, R198). -/
def encodeMx (c : Nat) (vs : List FV) : List Byte × Nat :=
  let w := fmtBits c
  let f := fmtOf c
  match mxScale c vs with
  | none => (BitVec.ofNat 8 0xFF :: zeros (mxBytes c - 1), flNan)
  | some x =>
    let es := vs.map fun v => (encodeElem f true (v.mul (.fin false 1 (-x)))).1
    let fl := if vs.any (fun v => !v.isFin) then flOvf else 0
    (BitVec.ofNat 8 (x + 127).toNat :: packBits w (es ++ List.replicate (32 - es.length) 0), fl)

/-- Cuts a list into runs of `k`. -/
def chunksOf {α : Type} (k : Nat) : Nat → List α → List (List α)
  | 0, _ => []
  | n + 1, l => if l.isEmpty then [] else l.take k :: chunksOf k n (l.drop k)

/-- Ors flags. -/
def orFlags (l : List Nat) : Nat := l.foldl (· ||| ·) 0

/-- Rounds values once into OUT_FMT and packs them: bytes and flags (R197, R198). -/
def encodeFs (c : Nat) (vs : List FV) : List Byte × Nat :=
  if fmtMx c then
    let bs := (chunksOf 32 (vs.length + 1) vs).map (encodeMx c)
    ((bs.map (·.1)).flatten, orFlags (bs.map (·.2)))
  else
    let f := fmtOf c
    let es := vs.map (encodeElem f (c == 0x04 || c == 0x05))
    (packBits (fmtBits c) (es.map (·.1)), orFlags (es.map (·.2)))

/-- Saturates a whole number into an integer format: bits and SAT (R200). -/
def encodeInt (c : Nat) (v : Int) : Nat × Nat :=
  let w := fmtBits c
  let hi : Int := 2 ^ (w - 1) - 1
  let lo : Int := -(2 ^ (w - 1) : Int)
  if hi < v then (unsgn w hi, flSat) else if v < lo then (unsgn w lo, flSat) else (unsgn w v, 0)

/-- Encodes accumulators into OUT_FMT. -/
def encodeAccs (mode c : Nat) (as : List (Nat × Nat)) : List Byte × Nat :=
  if mode = 2 then
    let es := as.map fun a => encodeInt c (sgn 64 a.1)
    (packBits (fmtBits c) (es.map (·.1)), orFlags (es.map (·.2)))
  else encodeFs c (as.map (accVal mode))

/-- Rounds a / b to nearest with ties to even, for b above zero (R252). -/
def rneDiv (a : Int) (b : Nat) : Int :=
  let q := a / (b : Int)
  let r := (a % (b : Int)).toNat
  if 2 * r > b ∨ (2 * r = b ∧ q % 2 = 1) then q + 1 else q

end Sys2Proof.Machine
end

