-- ==== Sys2Proof/Machine/Operands.lean ====
section
/-! DEFINITION. Operand forms: the engine sub-header (Table 6-6), the descriptor common header (Table 6-4) and the fields of
the engine bodies (Tables 7-2, 8-4 and 9-1). -/

namespace Sys2Proof.Machine

/-! ### Engine sub-header -/

def subUnit (p : Kmt) : Nat := byteAt p.payload 0 % 128
def subFmt (p : Kmt) : Nat := byteAt p.payload 1
def subGen (p : Kmt) : Nat := fld p.payload 2 2
def subDesc (p : Kmt) : Nat := fld p.payload 4 4
def subPhase (p : Kmt) : Nat := fld p.payload 8 2
def subContrib (p : Kmt) : Nat := fld p.payload 12 4 % 2 ^ 18

/-- Data after the sub-header. -/
def engData (p : Kmt) : List Byte := (p.payload.take p.len).drop 16

/-- Bytes of a sub-header. -/
def subBytes (unit fmt gen desc phase contrib : Nat) : List Byte :=
  le 1 unit ++ le 1 fmt ++ le 2 gen ++ le 4 desc ++ le 2 phase ++ zeros 2 ++ le 4 contrib

/-! ### Common header -/

def Desc.h (d : Desc) (o n : Nat) : Nat := fld d.raw o n
def Desc.kind (d : Desc) : Nat := d.h 0 1
def Desc.prec (d : Desc) : Bool := bit (d.h 1 1) 0
def Desc.notify (d : Desc) : Bool := bit (d.h 1 1) 1
def Desc.comp (d : Desc) : Nat := d.h 3 1 % 64
def Desc.gen (d : Desc) : Nat := d.h 4 2
def Desc.job (d : Desc) : Nat := d.h 6 2
def Desc.descId (d : Desc) : Nat := d.h 8 4
def Desc.inFmt (d : Desc) : Nat := d.h 14 1
def Desc.outFmt (d : Desc) : Nat := d.h 15 1
def Desc.deadline (d : Desc) : Nat := d.h 16 8
def Desc.count (d : Desc) : Nat := d.h 24 8 % 2 ^ 46
def Desc.ring (d : Desc) : Nat := d.h 32 2 % 1024
def Desc.phase (d : Desc) : Nat := d.h 34 2

/-- Field of the body. -/
def Desc.b (d : Desc) (o n : Nat) : Nat := fld d.raw (64 + o) n

/-- Reserved fields of the common header are zero (R5), by the header's bytes. -/
def headerOk (raw : List Byte) : Bool :=
  decide (byteAt raw 1 < 4) && decide (byteAt raw 2 < 128) && decide (byteAt raw 3 < 64) && decide (fld raw 24 8 < 2 ^ 46) &&
  decide (fld raw 32 2 < 1024) && zeroAt raw 40 24

/-! ### Collective body (Table 7-2) -/

def Desc.coll (d : Desc) : Nat := d.b 0 1
def Desc.redOp (d : Desc) : Nat := d.b 1 1
def Desc.level (d : Desc) : Nat := d.b 2 1 % 4
def Desc.depth (d : Desc) : Nat := d.b 2 1 / 4 % 4
def Desc.mcast (d : Desc) : Bool := bit (d.b 3 1) 0
def Desc.early (d : Desc) : Bool := bit (d.b 3 1) 1
def Desc.nmemb (d : Desc) : Nat := d.b 4 2
def Desc.mcg (d : Desc) : Nat := d.b 6 2 % 4096
def Desc.parentEp (d : Desc) : Nat := d.b 8 4 % 2 ^ 18
def Desc.parentUnit (d : Desc) : Nat := d.b 12 1 % 128
def Desc.parentGen (d : Desc) : Nat := d.b 14 2
def Desc.myIndex (d : Desc) : Nat := d.b 16 4 % 2 ^ 18
def Desc.destEp (d : Desc) : Nat := d.b 20 4 % 2 ^ 18
def Desc.mtabSpace (d : Desc) : Nat := d.b 24 2 % 1024
def Desc.rsElems (d : Desc) : Nat := d.b 28 4
def Desc.mtabAddr (d : Desc) : Nat := d.b 32 8 % 2 ^ 46
def Desc.anchorEp (d : Desc) : Nat := d.b 48 4 % 2 ^ 18
def Desc.isRoot (d : Desc) : Bool := d.level == d.depth

/-! ### Fields that the three kinds share: identity of the work and its standby copy (Tables 7-2, 8-4, 9-1) -/

/-- COLL_ID, GATHER_ID or FILTER_ID. -/
def Desc.workId (d : Desc) : Nat := if d.kind = 1 then d.b 40 8 else if d.kind = 2 then d.b 16 8 else d.b 40 8
/-- PARTNER_UNIT and PARTNER_GEN. -/
def Desc.partnerUnit (d : Desc) : Nat := (if d.kind = 1 then d.b 13 1 else if d.kind = 2 then d.b 12 1 else d.b 48 1) % 128
def Desc.partnerGen (d : Desc) : Nat := if d.kind = 1 then d.b 26 2 else if d.kind = 2 then d.b 14 2 else d.b 50 2
/-- A standby copy is asked for: always for a collective (R222), by STANDBY otherwise. -/
def Desc.wantsStandby (d : Desc) : Bool := if d.kind = 1 then true else if d.kind = 2 then bit (d.b 12 1) 7 else bit (d.b 48 1) 7
/-- LEVEL and NODE_IDX of the ownership record (R221, R257). -/
def Desc.ownLevel (d : Desc) : Nat := if d.kind = 1 then d.level else 1
def Desc.ownIdx (d : Desc) : Nat := if d.kind = 1 ∧ !d.isRoot then d.myIndex else 0

/-! ### Gather and filter bodies -/

def Desc.gTable (d : Desc) : Nat := d.b 0 1
def Desc.gMean (d : Desc) : Bool := d.b 1 1 == 2
def Desc.gPairs (d : Desc) : Bool := bit (d.b 2 1) 0
def Desc.gPrefetch (d : Desc) : Bool := bit (d.b 2 1) 1
def Desc.gNoHot (d : Desc) : Bool := bit (d.b 2 1) 2
def Desc.srcEp (d : Desc) : Nat := (if d.kind = 2 then d.b 4 4 else d.b 32 4) % 2 ^ 18
/-- DEST_EP of a gather or filter body. -/
def Desc.outEp (d : Desc) : Nat := (if d.kind = 2 then d.b 8 4 else d.b 36 4) % 2 ^ 18
def Desc.fMode (d : Desc) : Nat := d.b 1 1
def Desc.nInsn (d : Desc) : Nat := d.b 2 1
def Desc.nConst (d : Desc) : Nat := d.b 3 1
def Desc.recLen (d : Desc) : Nat := d.b 4 2
def Desc.outLen (d : Desc) : Nat := d.b 6 2
def Desc.topK (d : Desc) : Nat := d.b 8 2
def Desc.keyFp (d : Desc) : Bool := bit (d.b 10 1) 0
def Desc.keyMin (d : Desc) : Bool := bit (d.b 10 1) 1
def Desc.progTag (d : Desc) : Nat := d.b 12 4

/-! ### Haul descriptor (Table 10-5) -/

def HDesc.h (d : HDesc) (o n : Nat) : Nat := fld d.raw o n
/-- HOP is EXPAND. -/
def HDesc.expand (d : HDesc) : Bool := d.h 0 1 == 1
def HDesc.notify (d : HDesc) : Bool := bit (d.h 1 1) 0
def HDesc.mcast (d : HDesc) : Bool := bit (d.h 1 1) 1
def HDesc.doneEn (d : HDesc) : Bool := bit (d.h 1 1) 2
def HDesc.comp (d : HDesc) : Nat := d.h 3 1 % 64
def HDesc.job (d : HDesc) : Nat := d.h 6 2
def HDesc.descId (d : HDesc) : Nat := d.h 8 4
def HDesc.outFmt (d : HDesc) : Nat := d.h 12 1
def HDesc.ncb (d : HDesc) : Nat := d.h 13 1
def HDesc.ring (d : HDesc) : Nat := d.h 14 2 % 1024
def HDesc.nblk (d : HDesc) : Nat := d.h 24 4
def HDesc.slot (d : HDesc) : Nat := d.h 28 2
def HDesc.srcSpace (d : HDesc) : Nat := d.h 30 2 % 1024
def HDesc.srcAddr (d : HDesc) : Nat := d.h 32 8 % 2 ^ 46
def HDesc.cbSpace (d : HDesc) : Nat := d.h 40 2 % 1024
def HDesc.cbAddr (d : HDesc) : Nat := d.h 48 8 % 2 ^ 46
def HDesc.elemBase (d : HDesc) : Nat := d.h 56 8 % 2 ^ 46
def HDesc.elems (d : HDesc) : Nat := d.h 64 8 % 2 ^ 46
def HDesc.dest (d : HDesc) : Nat := d.h 72 4
def HDesc.win (d : HDesc) : Nat := d.h 76 2 % 1024
def HDesc.outOff (d : HDesc) : Nat := d.h 80 8 % 2 ^ 46
def HDesc.scaleOff (d : HDesc) : Nat := d.h 88 8 % 2 ^ 46
def HDesc.doneOff (d : HDesc) : Nat := d.h 96 8 % 2 ^ 46
def HDesc.ctx (d : HDesc) : Nat := d.h 104 4
def HDesc.nsalt (d : HDesc) : Nat := d.h 108 4
/-- Codebook indices to preload. -/
def HDesc.cbl (d : HDesc) : List Nat := (List.range d.ncb).map fun k => d.h (112 + k) 1

/-! ### Stored blocks (Tables 10-2 and 10-3) and codebook entries (Table 10-4) -/

def envEnc (b : List Byte) : Bool := bit (byteAt b 3) 0
def envLast (b : List Byte) : Bool := bit (byteAt b 3) 1
def envLen (b : List Byte) : Nat := fld b 4 2
def envKgen (b : List Byte) : Nat := fld b 6 2
def innDim (b : List Byte) : Nat := byteAt b 1
def innW1 (b : List Byte) : Nat := byteAt b 2
def innW2 (b : List Byte) : Nat := byteAt b 3
def innVec (b : List Byte) : Nat := fld b 4 2
def innClen (b : List Byte) : Nat := fld b 6 2
def innElem (b : List Byte) : Nat := fld b 8 8
def innCb1 (b : List Byte) : Nat := byteAt b 16
def innCb2 (b : List Byte) : Nat := byteAt b 17
def innScale (b : List Byte) : Nat := fld b 18 2
def entDim (e : List Byte) : Nat := byteAt e 0
def entFmt (e : List Byte) : Nat := byteAt e 1
def entN (e : List Byte) : Nat := fld e 4 4
def entScale (e : List Byte) : Nat := fld e 8 4
def entOff (e : List Byte) : Nat := fld e 12 4

/-! ### Route Card image (Tables 11-5 and 11-6) -/

def rcLayers (b : List Byte) : Nat := fld b 2 2
def rcSteps (b : List Byte) : Nat := fld b 4 2
def rcDepth (b : List Byte) : Nat := byteAt b 6
def rcTag (b : List Byte) : Nat := fld b 8 8
def rcWin (b : List Byte) (c : Nat) : Nat := fld b (16 + 4 * c) 4
def rcWinSpace (b : List Byte) : Nat := fld b 32 2 % 1024
def rcRelSpace (b : List Byte) : Nat := fld b 34 2 % 1024
def rcRel (b : List Byte) : Nat := fld b 36 2
def rcRing (b : List Byte) : Nat := fld b 38 2 % 1024
def rcWinAddr (b : List Byte) : Nat := fld b 40 8 % 2 ^ 46
def rcRelAddr (b : List Byte) : Nat := fld b 48 8 % 2 ^ 46
def rcImageLen (b : List Byte) : Nat := 64 + 16 * rcLayers b + 128 * rcSteps b
def layerFirst (b : List Byte) (l : Nat) : Nat := fld b (64 + 16 * l) 2
def layerSteps (b : List Byte) (l : Nat) : Nat := fld b (66 + 16 * l) 2
def layerDl (b : List Byte) (l : Nat) : Nat := fld b (68 + 16 * l) 4
/-- The 128 bytes of a step entry. -/
def stepRaw (b : List Byte) (k : Nat) : List Byte := slice b (64 + 16 * rcLayers b + 128 * k) 128
/-- Steps of a layer. -/
def layerList (b : List Byte) (l : Nat) : List Nat := (List.range (layerSteps b l)).map (layerFirst b l + ·)

end Sys2Proof.Machine
end

