-- ==== Sys2Proof/Machine/Engines.lean ====
section
/-! DEFINITION. Engine and Haul units: roles, Ropes, splits, resets (R175 to R187, R203 to R207, R295), and what the three
engine roles share: the checks of Table 6-8, packets sent and answered, completions and deadlines. -/

namespace Sys2Proof.Machine

/-! ### Units -/

/-- Key of a unit: engine units 0 to 127, Haul units 128 to 191. -/
def ukey : UKind → Nat → Nat
  | .eng, u => u
  | .haul, u => 128 + u

/-- A unit's state. -/
def eunit (s : State) (key : Nat) : EUnit := mgetD s.eng.units key {}

/-- Changes a unit. -/
def setUnit (key : Nat) (f : EUnit → EUnit) (s : State) : State :=
  { s with eng.units := msetD s.eng.units key {} (f (eunit s key)) }

/-- Is the key a tile or Haul engine? -/
def isTile (key : Nat) : Bool := decide (key < 64) || (decide (128 ≤ key) && decide (key < 160))

/-- Does the unit exist: a tile, an engine or a formed Rope? -/
def unitThere (s : State) (key : Nat) : Bool := decide (key < 192) && (isTile key || (eunit s key).formed)

/-- Tiles or engines under a unit, in member order. -/
def tilesOf (s : State) : Nat → Nat → List Nat
  | 0, _ => []
  | fuel + 1, key => if isTile key then [key] else ((eunit s key).members.map (tilesOf s fuel)).flatten

def tilesUnder (s : State) (key : Nat) : List Nat := tilesOf s 65 key

/-- The outermost Rope that contains a unit, or the unit. -/
def outermost (s : State) : Nat → Nat → Nat
  | 0, key => key
  | fuel + 1, key => match (eunit s key).parent with
    | some r => outermost s fuel r
    | none => key

def topOf (s : State) (key : Nat) : Nat := outermost s 65 key

/-- Register address of a counter of an engine unit (Table 6-14). -/
def unitCtr (u tileOff ropeOff : Nat) : Nat :=
  if u < 64 then 0x05000000 + u * 0x10000 + tileOff else 0x05400000 + (u - 64) * 0x100 + ropeOff

/-- Role generation after an increment. -/
def genUp (g : Nat) : Nat := (g + 1) % 65536

/-- Splits a span over a unit's tiles (R185). -/
def splitSpan (s : State) (g : Nat) : Nat → Nat → Nat → Nat → List ShareSt
  | 0, _, _, _ => []
  | fuel + 1, key, lo, hi =>
    if isTile key then [{ tile := key % 128, lo, hi }] else
    let ms := (eunit s key).members
    let total := max 1 (tilesUnder s key).length
    let go := ms.foldl (fun (acc : Nat × Nat × Nat × List ShareSt) m =>
      let (i, t, b, out) := acc
      let t := t + (tilesUnder s m).length
      let e := if i + 1 = ms.length then hi else lo + (hi - lo) * t / total / g * g
      (i + 1, t, e, out ++ splitSpan s g fuel m b e)) (0, 0, lo, [])
    go.2.2.2

/-- Shares of a descriptor on an engine unit. -/
def splitOver (s : State) (unit g count : Nat) : List ShareSt := splitSpan s g 65 unit 0 count

/-- Active descriptors of an engine unit (R189). -/
def activeOn (s : State) (u : Nat) : List Desc := s.eng.descs.filter (·.unit == u)

/-- Changes a descriptor. -/
def setDesc (id : Nat) (f : Desc → Desc) (s : State) : State :=
  { s with eng.descs := modIf (·.id == id) f s.eng.descs }

def findDesc (s : State) (id : Nat) : Option Desc := s.eng.descs.find? (·.id == id)

/-- Input of the switch core for a tile. -/
def tileInp (t : Nat) : Nat := inTile (t % 64)

/-- The Crest of a unit's lowest-numbered tile, whose lane its records take (R424). -/
def unitCrest (s : State) (key : Nat) : Nat :=
  let ts := (tilesUnder s key).map (· % 128)
  let m := ts.foldl min (ts.headD 0)
  if key < 128 then m / 16 % 4 else m / 8 % 4

/-! ### Packets that a unit sends -/

/-- A TAG that no packet of a unit is out under: the Talik's choice. -/
def engTag (s : State) : Nat := (anyFree (fun g => s.eng.sent.any (·.tag == g)) (freeVal s) (2 ^ 24)).getD 0

/-- Logical ports and tiles of a multicast group: 24 mask words, internal mask and engine set, owner (R101, R108). -/
def groupPorts (s : State) (g : Nat) : List Nat :=
  (List.range 768).filter fun l => bit (reg s (0x02100000 + 128 * g + 4 * (l / 32))) (l % 32) && isLport s l
def groupTiles (s : State) (g : Nat) : List Nat :=
  let set := b2n (bit (reg s (0x02100000 + 128 * g + 100)) 8)
  ((List.range 32).filter fun n => bit (reg s (0x02100000 + 128 * g + 96)) n).map (32 * set + ·)
def groupComp (s : State) (g : Nat) : Nat := reg s (0x02100000 + 128 * g + 100) % 64

/-- Sends one packet to every member of a group (R101 to R103). -/
def sendGroup (g inp tc : Nat) (p : Kmt) (gate : Gate) (s : State) : State :=
  let ps := groupPorts s g
  let ts := groupTiles s g
  if ps = [] ∧ ts = [] then count 0x02000428 s else
  let up := ps.filter (live s)
  let s := each (ps.filter (fun l => !live s l)) (fun l s => count 0x02000428 (captureDrop l 0x3FF tc (.kmt p) p.comp false true 3 s)) s
  let s := { s with rx := s.rx ++ ts.map fun _ => { lp := 0x3FF, tc, pkt := p } }
  if up = [] then s else
  enqueue { id := 0, inp, tc, legs := up.map fun l => { out := outPort (l / 8), lp := l }, mcast := true, cells := cellsOf (.kmt p)
            cargo := .kmt p, comp := p.comp, gate, crest := inp / 73 } s

/-- Puts a packet on its way: to a group, to a unit of this Talik, or by its DST (R190). A Second sends nothing (R438). -/
def launch (inp tc : Nat) (p : Kmt) (group : Option Nat) (gate : Gate) (s : State) : State :=
  if seconding s then s else
  match group with
  | some g => sendGroup g inp tc p gate s
  | none =>
    if p.dst = selfEp s then { s with rx := s.rx ++ [{ lp := 0x3FF, tc, pkt := p }] } else sendDst inp tc p gate s

/-- A packet of a descriptor: header and sub-header (R190). -/
def engPkt (s : State) (d : Desc) (op dst unit fmt gen phase contrib addr : Nat) (data : List Byte) : Kmt :=
  let pl := subBytes unit fmt gen d.descId phase contrib ++ data
  { opcode := op, comp := d.comp, len := pl.length, job := d.job, src := selfEp s, dst, addr, payload := pl }

/-- Sends a packet of a descriptor and waits for its answer. A fenced Talik holds the packets of mirrored work back (R428). -/
def sendEng (d : Desc) (inp tc : Nat) (p : Kmt) (what : SentFor) (group : Option Nat) (need : List Nat) (gate : Gate) (s : State) : State :=
  let tag := engTag s
  let p := { p with tag }
  let s := digestPkt inp p s
  let gone := !fencedComp s d.comp
  let s := useFree { s with eng.sent := s.eng.sent ++ [{ tag, desc := d.id, inp, tc, pkt := p, what, group, need, at_ := s.clock.clk, gone }] }
  if gone then launch inp tc p group gate s else s

/-- The answer to an engine packet: the sub-header comes back, with data where the opcode has it (R191). -/
def engReply (lp tc : Nat) (p : Kmt) (status load : Nat) (data : List Byte) (inp : Nat) (s : State) : State :=
  let pl := if status = 0x10 then [] else p.payload.take 16 ++ data
  let l := if status = 0x02 then load else if lp < 768 then loadOf s lp none else freeVal s % 15
  let r := response p (selfEp s) status l pl
  let s := useFree s
  if seconding s then s
  else if lp < 768 ∧ modeOf s lp = 1 then sendFrom inp lp tc r none s else launch inp tc r none none s

/-- A multicast packet has been answered by an endpoint, or a unicast one: it is out no more once nobody is left. -/
def takeAnswer (e : ESent) (src : Nat) (s : State) : Bool × State :=
  let left := e.need.filter (· != src)
  if left = [] then (true, { s with eng.sent := s.eng.sent.filter (·.tag != e.tag) })
  else (false, { s with eng.sent := modIf (·.tag == e.tag) (fun x => { x with need := left }) s.eng.sent })

/-- The packet that a response answers. A Second knows it by its sub-header and ADDR: TAGs differ between two Taliks (R438). -/
def findSent (s : State) (p : Kmt) : Option ESent :=
  s.eng.sent.find? fun e =>
    (if seconding s then e.pkt.payload.take 16 == p.payload.take 16 && e.pkt.addr == p.addr else e.tag == p.tag) && e.pkt.opcode == p.opcode && (e.need.isEmpty && e.pkt.dst == p.src || e.need.contains p.src)

/-- A refused packet is sent again, as a new request, to the endpoint that refused it (R140). -/
def sendAgain (e : ESent) (src : Nat) (s : State) : State :=
  launch e.inp e.tc { e.pkt with dst := src } none none
    { s with eng.sent := modIf (·.tag == e.tag) (fun x => { x with at_ := s.clock.clk }) s.eng.sent }

/-! ### Ownership and mirror records that the roles share (R221, R222, R257, R278) -/

/-- The ownership record of a descriptor (Table 7-5). -/
def ownRecord (s : State) (d : Desc) (epoch : Nat) (abort : Bool) (prev : Nat) : List Byte :=
  le 8 d.workId ++ le 4 epoch ++ le 1 d.ownLevel ++ le 1 d.commit ++ le 1 (b2n abort) ++ [0] ++ le 4 d.ownIdx ++ le 4 (selfEp s) ++
  le 1 d.unit ++ [0] ++ le 2 (eunit s d.unit).gen ++ le 4 prev

/-- OWN record (Table 15-4): 1 accept, 2 commit, 3 ownership change. -/
def logOwn (kind : Nat) (d : Desc) (extra : List Byte) (s : State) : State × Gate :=
  logRec (unitCrest s d.unit)
    { rtype := 0x0A, comp := d.comp, body := le 1 kind ++ zeros 7 ++ ownRecord s d d.epoch false (selfEp s) ++ extra } s

/-- INPUT record to a Second (R438): 0 descriptor, 1 packet, 2 read data, counted per tile. -/
def logInput (tile kind comp : Nat) (item : List Byte) (s : State) : State :=
  if s.flt.second.leading = 2 ∧ mirrorBit s comp then
    let n := mgetD s.eng.insq tile 0 + 1
    (logRec (tile / 16 % 4) { rtype := 0x0E, comp, body := le 1 tile ++ le 1 kind ++ zeros 6 ++ le 8 n ++ padMul 8 item }
      { s with eng.insq := mset s.eng.insq tile n }).1
  else s

/-! ### Completions -/

/-- Engine completion payload (Table 6-5). -/
def engPayload (d : Desc) (status done : Nat) : List Byte :=
  le 1 status ++ le 1 d.flags ++ le 1 (match d.fail with
    | some (u, _) => 0x80 + u
    | none => 0) ++ [0] ++ le 4 d.descId ++ le 4 (d.h 36 4) ++ le 2 d.phase ++ zeros 2 ++ zeros 8 ++ le 8 done

/-- A descriptor ends: counters, and its completion into its ring once the gate is open (R189, R200 to R202, R207). -/
def finishDesc (id status : Nat) (done : Nat) (g : Gate) (s : State) : State :=
  match findDesc s id with
  | none => s
  | some d =>
    if d.posting then s else
    let u := d.unit
    let s := if status = 0x41 ∨ status = 0x51 then count (unitCtr u 0x128 0x60) s else s
    let s := if status = 0x40 then
        let f := (d.fail.map (·.1)).getD u
        dlMiss f (unitCtr f 0x118 0x50) d.comp s
      else s
    let s := setDesc id (fun d => { d with posting := true }) { s with eng.sent := s.eng.sent.filter (·.desc != id) }
    let doneCtr := unitCtr u 0x100 0x40
    let s := digestOut (unitCrest s u) (mgetD s.eng.insq ((tilesUnder s u).headD 0) 0) d.comp (engPayload d status done) s
    if seconding s then dropDesc id status s else
    let s := ringPutG g d.comp d.ring
      { type := 2, status, payload := engPayload d status done, deadline := d.deadline, unit := u
        dlCounter := unitCtr u 0x118 0x50, doneCtr := if conf s d.comp then 0 else doneCtr
        tAt := 16, desc := id } s
    if d.notify then event d.comp 4 u doneCtr (attn 4 s) else s

/-- Items whose results have been emitted (Table 6-5). -/
def doneItems (d : Desc) : Nat :=
  match d.work with
  | .node n => n.emitted
  | .batch b => b.ok
  | .run _ => d.done

/-- The parent's packets that a node holds are answered with a status. -/
def answerHeld (d : Desc) (status : Nat) (s : State) : State :=
  match d.work with
  | .node n =>
    each (n.down.map (·.2) ++ n.rel.toList) (fun w s => engReply w.lp w.tc w.pkt status 12 [] (tileInp 0) s) s
  | _ => s

/-- A descriptor is ended from outside its own work: with ABORTED, TENANT_GONE, INTERNAL_FAULT or OWNER_CONFLICT. A standby
copy that nobody has claimed goes without a completion: it does nothing else until it is claimed (R222). -/
def stopDesc (status : Nat) (d : Desc) (s : State) : State :=
  if d.standby then dropDesc d.id status s else finishDesc d.id status (doneItems d) none (answerHeld d status s)

/-- Every descriptor of an engine unit ends with a status. -/
def stopUnit (u status : Nat) (s : State) : State := each (activeOn s u) (stopDesc status) s

/-! ### ROPE_FORM and ROLE_ASSIGN -/

/-- Tiles have uncorrectable errors. -/
def anyFailed (s : State) (key : Nat) : Bool := (tilesUnder s key).any fun t => (eunit s t).failed

/-- ROPE_FORM with FORM (R182, Table 6-3). -/
def ropeFormBody (c : CmdRec) (s : State) : CmdRes × State :=
  let base := if pb c 1 = 1 then 128 else 0
  let lim := if pb c 1 = 1 then 64 else 128
  let raw := (List.range (pb c 2)).map fun i => pb c (8 + i)
  let ks := raw.map (base + ·)
  if raw.any (fun m => decide (lim ≤ m)) ∨ raw.eraseDups.length ≠ raw.length ∨ ks.any (fun k => !unitThere s k) then bad 0x11 s
  else if ks.any (fun k => (eunit s k).role != 0 || (eunit s k).parent.isSome || anyFailed s k) then bad 0x11 s
  else if ks.any (fun k => (eunit s k).st != 0 || (eunit s k).rstBusy) then retryRes 12 s
  else
    let first := if pb c 1 = 1 then 160 else 64
    match firstFree (fun k => (eunit s k).formed) first (lim / 2) with
    | none => retryRes 12 s
    | some r =>
      let s := setUnit r (fun u => { gen := genUp u.gen, formed := true, members := ks }) s
      let s := each ks (fun k s => setUnit k (fun u => { u with parent := some r, gen := genUp u.gen }) s) s
      (.done 0 (le 1 (r - base) ++ [0] ++ le 2 (eunit s r).gen ++ zeros 4), s)

/-- ROPE_FORM with DISSOLVE (R181, R183, Table 6-3). -/
def ropeDissolveBody (c : CmdRec) (s : State) : CmdRes × State :=
  let base := if pb c 1 = 1 then 128 else 0
  let r := base + pb c 3
  let lim := if pb c 1 = 1 then 64 else 128
  let u := eunit s r
  if lim ≤ pb c 3 ∨ isTile r ∨ !u.formed ∨ u.role ≠ 0 ∨ u.parent.isSome then bad 0x11 s
  else if u.st ≠ 0 ∨ u.rstBusy then retryRes 12 s
  else
    let s := each u.members (fun k s => setUnit k (fun v => { v with parent := none, gen := genUp v.gen }) s) s
    (.done 0 (le 1 (r - base) ++ [0] ++ le 2 u.gen ++ zeros 4), setUnit r (fun v => { gen := v.gen }) s)

/-- DRAIN_US of ENG_CFG in ns. -/
def engDrainNs (s : State) : Nat := bits (reg s 0x05800000) 31 16 * 1000

/-- A unit enters CHANGING (R178 step 1). -/
def beginChange (key role k status : Nat) (drain : Bool) (s : State) : State :=
  setUnit key (fun u => { u with
    st := if u.st = 2 then 2 else 1
    change := some { role, comp := if role = 0 then 0 else k, status, drainAt := if drain then some (s.clock.clk + engDrainNs s) else none } }) s

/-- ROLE_ASSIGN up to its PENDING reply (R178 to R180, R348, R504). `stop`: how the unit's descriptors end at once. -/
def roleAssignBody (stop : Nat → Nat → State → State) (c : CmdRec) (s : State) : CmdRes × State :=
  let k : UKind := if pb c 1 = 1 then .haul else .eng
  let lim := if pb c 1 = 1 then 64 else 128
  let key := ukey k (pb c 0)
  let u := eunit s key
  if lim ≤ pb c 0 then bad 0x11 s
  else if !unitThere s key then bad 0x12 s
  else if u.parent.isSome then bad 0x11 s
  else if u.role ≠ 0 ∧ u.comp ≠ c.comp then bad 0x13 s
  else if u.st ≠ 0 then retryRes 12 s
  else
    let drain := bit (pb c 3) 0
    let s := beginChange key (pb c 2) c.comp 0x41 drain s
    (.pending (.role k (pb c 0)), if drain then s else stop key 0x41 s)

/-- SRAM of a tile or the stores of a Haul engine are zeroed: program slots and hot rows go (R176, R178 step 4). -/
def zeroTiles (key : Nat) (s : State) : State :=
  each (tilesUnder s key) (fun t s => { s with
    eng.slots := s.eng.slots.filter fun p => p.1 / 4 != t || decide (128 ≤ key)
    eng.hot := s.eng.hot.filter fun p => p.1 != t || decide (128 ≤ key)
    haul.books := s.haul.books.filter fun b => 128 + b.engine != t }) s

/-- Registers of Table 17-5 of each tile or engine under a unit, and of an engine Rope, are zeroed (R478). -/
def hideUnit (key : Nat) (s : State) : State :=
  let ts := tilesUnder s key
  let tile := fun (t : Nat) (s : State) =>
    if key < 128 then each [0x100, 0x108, 0x150, 0x158, 0x170, 0x180, 0x188] (fun o s => { s with ctrs := mdel s.ctrs (0x05000000 + t * 0x10000 + o) }) s
    else each [0x108, 0x110, 0x138, 0x140] (fun o s => { s with ctrs := mdel s.ctrs (0x06000000 + (t - 128) * 0x10000 + o) }) s
  let s := each ts tile s
  if 64 ≤ key ∧ key < 128 then
    each [0x40, 0x78, 0x80, 0x98, 0xA0, 0xA8] (fun o s => { s with ctrs := mdel s.ctrs (0x05400000 + (key - 64) * 0x100 + o) }) s
  else s

/-- ROLE_SCRUB_START: the last descriptor has ended (R178 step 4). `idle`: the unit has no active descriptor. -/
def roleScrubStart (key : Nat) (idle : Bool) (s : State) : State :=
  let u := eunit s key
  if running s ∧ u.st = 1 ∧ !u.rstBusy ∧ idle then
    zeroTiles key (setUnit key (fun u => { u with gen := genUp u.gen, st := 2, scrubAt := s.clock.clk }) s)
  else s

/-- ns that a scrub takes: 8,192 cycles of 600 MHz for engine tiles (R179), 4 µs for Haul engines (R295). -/
def scrubNs (key : Nat) : Nat := if key < 128 then 13654 else 4000

/-- ROLE_SCRUB_DONE: the new role and composition are set, and ROLE_ASSIGN completes with the role generation (R178, R179). -/
def roleScrubDone (k : UKind) (unit : Nat) (s : State) : State :=
  let key := ukey k unit
  let u := eunit s key
  match u.change with
  | none => s
  | some ch =>
    if !running s ∨ u.st ≠ 2 ∨ u.rstBusy then s else
    let s := atLeast (u.scrubAt + scrubNs key) s
    let s := if conf s u.comp || conf s ch.comp then hideUnit key s else s
    let s := setUnit key (fun u => { u with role := ch.role, comp := ch.comp, st := 0, change := none }) s
    finishAll (.role k unit) 0 (le 2 u.gen) s

/-! ### Resets and failures -/

/-- A unit's reset starts (R203, R310): `key` is the outermost unit, whose descriptors have been ended. -/
def beginReset (key : Nat) (s : State) : State :=
  zeroTiles key (setUnit key (fun u => { u with gen := genUp u.gen, rstBusy := true, rstAt := s.clock.clk }) s)

/-- A unit's reset ends (R203, R204): FAILED clears where the read-back finds no error. -/
def endReset (key : Nat) (clean : Bool) (s : State) : State :=
  if running s && (eunit s key).rstBusy then
    let s := setUnit key (fun u => { u with rstBusy := false }) s
    if clean then each (tilesUnder s key) (fun t s => setUnit t (fun u => { u with failed := false }) s) s else s
  else s

/-! ### Checks of Table 6-8 -/

/-- The first row of a table that stops: status, LOAD and counter (0 for none); status 0 when none does. -/
structure Row where
  status : Nat := 0
  load : Nat := 0
  ctr : Nat := 0
  deriving DecidableEq, Repr

def Row.or (a b : Row) : Row := if a.status = 0 then b else a
/-- A row with its condition. -/
def Row.when (c : Bool) (status : Nat) (load : Nat := 0) (ctr : Nat := 0) : Row := if c then { status, load, ctr } else {}

/-- Is the job one of the composition's own? -/
def jobOf (s : State) (job k : Nat) : Bool :=
  job != 0xFFFF && ((mget s.xlt.jobs job).map fun j => j.comp == k && !j.shadow).getD false

/-- Descriptor rows of Table 6-8. -/
def descRow (s : State) (raw : List Byte) : Row :=
  let u := byteAt raw 2
  let k := byteAt raw 3
  let e := eunit s u
  let i := byteAt raw 14
  let o := byteAt raw 15
  let bl := fld raw 12 2
  let kind := byteAt raw 0
  let ring := findRing s k (fld raw 32 2 % 1024)
  (Row.when (s.dev.devState == .baseCamp || s.dev.devState == .quiesced || seconding s) 0x02 15).or <|
  (Row.when (!compLive s k) 0x51).or <|
  (Row.when (decide (128 ≤ u) || !unitThere s u) 0x12).or <|
  (Row.when (e.parent.isSome || e.st != 0 || e.gen != fld raw 4 2) 0x30 0 (unitCtr u 0x110 0x48)).or <|
  (Row.when ((e.role != 0 && e.comp != k) || !jobOf s (fld raw 6 2) k) 0x13 0 0x03000410).or <|
  (Row.when (e.role != kind || !fmtKnown i || !fmtKnown o || fmtInt i != fmtInt o || !headerOk raw ||
    !((ring.map fun r => decide (6 ≤ r.esize)).getD false) || fld raw 24 8 == 0 || bl % 8 != 0 || decide (960 < bl) ||
    (kind == 1 && bl != 64) || (kind == 2 && bl != 32) ||
    (activeOn s u).any fun d => d.comp == k && d.descId == fld raw 8 4) 0x11).or <|
  (Row.when (anyFailed s u) 0x60).or <|
  (Row.when (decide (32 ≤ (activeOn s u).length)) 0x02 12).or <|
  Row.when (fld raw 16 8 != 0 && decide (fld raw 16 8 < s.clock.tb)) 0x40 0 (unitCtr u 0x118 0x50)

/-- Role of an engine opcode (Table 6-7a); 0 for any. -/
def opRole (op : Nat) : Nat :=
  if op = 0x52 then 0 else if op < 0x54 then 1 else if op < 0x58 then 2 else 3

/-- Classes of an engine opcode (Table 6-7a). -/
def engClassOk (op tc : Nat) : Bool :=
  if op = 0x52 then tc == 2 || tc == 4 || tc == 5
  else if op < 0x54 ∨ op = 0x5C ∨ op = 0x5D then tc == 2
  else if op < 0x58 then tc == 5
  else tc == 4 || tc == 5

/-- Partial format of a collective descriptor (Table 7-4, R209). -/
def Desc.mode (d : Desc) : Nat := accMode d.inFmt d.prec (d.kind == 2 || d.redOp == 1)

/-- The FMT that an opcode carries (Table 6-8). -/
def wantFmt (d : Desc) (op : Nat) : Nat :=
  if op = 0x51 then d.outFmt else if op = 0x52 then (if d.kind = 1 then partialFmt d.mode else d.inFmt) else d.inFmt

/-- Items that a packet carries, for the share rule (R186); none where the role's own rows judge its data. -/
def pktItems (d : Desc) (p : Kmt) : Nat :=
  if d.kind = 1 then min 512 (d.count - p.addr)
  else if p.opcode = 0x54 then byteAt p.payload 18
  else if p.opcode = 0x58 then fld p.payload 16 2
  else 1

/-- The share that holds an item. -/
def shareAt (d : Desc) (a : Nat) : Option (Nat × ShareSt) :=
  ((List.range d.shares.length).zip d.shares).find? fun p => decide (p.2.lo ≤ a) && decide (a < p.2.hi)

/-- The active descriptor that a packet names. -/
def pktDesc (s : State) (p : Kmt) : Option Desc :=
  (activeOn s (subUnit p)).find? fun d => d.comp == p.comp && d.descId == subDesc p && !d.standby

/-- Sender rows of Table 6-8, after the format rows of Table 4-3. -/
def senderRow (s : State) (lp tc : Nat) (p : Kmt) : Row :=
  (Row.when (decide (p.len < 16) || decide (4112 < p.len) || !engClassOk p.opcode tc) 0x11 0 0x03000400).or <|
  (Row.when (s.dev.devState == .baseCamp || s.dev.devState == .quiesced || seconding s) 0x02 15).or <|
  (Row.when (decide (lp < 768) && modeOf s lp == 2) 0x13 0 0x03000410).or <|
  (Row.when (decide (lp < 768) && modeOf s lp == 1 && (!epValid s lp || p.src != epId s lp || p.comp != epComp s lp))
    0x13 0 0x03000410).or <|
  Row.when (!compLive s p.comp) 0x51

/-- Unit and composition rows of Table 6-8 for a packet. A packet of a descriptor still active on a CHANGING unit is accepted
(R178 step 3). -/
def unitRow (s : State) (p : Kmt) : Row :=
  let u := subUnit p
  let e := eunit s u
  (Row.when (!unitThere s u) 0x12).or <|
  (Row.when (e.parent.isSome || (e.st != 0 && (pktDesc s p).isNone) || e.gen != subGen p) 0x30 0 (unitCtr u 0x110 0x48)).or <|
  Row.when ((e.role != 0 && e.comp != p.comp) || !jobOf s p.job p.comp) 0x13 0 0x03000410

/-- The rest of Table 6-8 for a packet, up to the fold record. A node's control packets have ADDR zero and no data (R215). -/
def pktRow (s : State) (p : Kmt) : Row :=
  let u := subUnit p
  let e := eunit s u
  let d := pktDesc s p
  let hold := (s.eng.ended.reverse.find? fun x => x.unit == u && x.comp == p.comp && x.descId == subDesc p &&
    decide (s.clock.clk ≤ x.at_ + e2eHold s)).map (·.status)
  let ctl := p.opcode == 0x51 && decide (0xFFFD ≤ subPhase p)
  (Row.when (e.role == 0 || (opRole p.opcode != 0 && opRole p.opcode != e.role) ||
    ((d.map fun d => subFmt p != wantFmt d p.opcode || (!ctl && (
      !(((shareAt d p.addr).map fun q => decide (p.addr + pktItems d p ≤ q.2.hi)).getD false)) &&
      !(d.kind == 3 && p.opcode == 0x52))).getD false)) 0x11).or <|
  (Row.when d.isNone (hold.getD 0x41)).or <|
  Row.when ((d.map fun d => d.deadline != 0 && decide (d.deadline < s.clock.tb)).getD false) 0x40

/-- Does the unit take packets from this port: an ingress port in service, or another unit of this Talik? -/
def engTakes (s : State) (lp : Nat) : Bool := running s && (lp == 0x3FF || takesPackets s lp)

/-- Counts what a stopping row counts. -/
def rowCount (r : Row) (s : State) : State := if r.ctr = 0 then s else count r.ctr s

/-- A packet matches a fold record: counted (R192). -/
def dupCount (d : Desc) (s : State) : State :=
  let c := unitCtr d.unit 0x120 0x58
  let s := count c s
  if bit (reg s 0x05800000) 1 then event d.comp 4 d.unit c (attn 4 s) else s

/-- Bytes that a tile takes in (R207). -/
def bytesIn (tile k n : Nat) (s : State) : State := if conf s k then s else countN (0x05000000 + tile * 0x10000 + 0x108) n s

/-- Handed over, fenced or claimed away: packets for the work are answered RETRY_LATER (R223, R435). -/
def movingNow (s : State) (d : Desc) : Bool := d.moving || fencedComp s d.comp

/-- An engine packet with RSP = 0: forwarded when it is for another Talik (R190), else checked up to the fold record, and
handed to its role. -/
def engPacket (work : Nat → Nat → Kmt → Desc → State → State) (lp tc : Nat) (p : Kmt) (s : State) : State :=
  if !engTakes s lp ∨ p.rsp then s
  else if p.dst ≠ selfEp s ∧ p.dst ≠ 0x3FFFF then (if lp = 0x3FF then s else message lp tc p s)
  else
    let s := takeRx lp tc p s
    let r := (senderRow s lp tc p).or ((unitRow s p).or (pktRow s p))
    let inp := tileInp (subUnit p)
    if r.status ≠ 0 then engReply lp tc p r.status r.load [] inp (rowCount r s)
    else match pktDesc s p with
      | none => s
      | some d =>
        match shareAt d p.addr with
        | some (_, sh) =>
          if sh.dead then engReply lp tc p 0x60 0 [] inp s
          else if d.posting then engReply lp tc p 0x41 0 [] inp s
          else work lp tc p d (bytesIn sh.tile d.comp (p.len - 16) s)
        | none => work lp tc p d s

/-- An uncorrectable SRAM error's record and flag (R204, R370). -/
def failTile (key : Nat) (s : State) : State :=
  let top := topOf s key
  let u := eunit s top
  let k := if u.role = 0 then none else some u.comp
  let s := setUnit key (fun u => { u with failed := true }) s
  if key < 128 then fault 4 1 k key 0 0 4 s else fault 4 2 k (key - 128) 0 0 5 s

/-! ### Ownership records (R221) -/

/-- NODE_ID of the Talik at an endpoint ID, as its heartbeats have named it; the Talik's own for its own. -/
def nodeOfEp (s : State) (ep : Nat) : Nat :=
  if ep = selfEp s then s.sec.nodeId
  else ((s.flt.heard.find? (·.1 == ep)).map (·.2.1)).getD (if ep = s.flt.partnerEp then partnerNode s else 0)

/-- The record that a payload spells (Table 7-5). -/
def ownOf (k node : Nat) (b : List Byte) : OwnRec :=
  { comp := k, coll := fld b 0 8, epoch := fld b 8 4, level := byteAt b 12 % 4, commit := byteAt b 13, abort := bit (byteAt b 14) 0
    idx := fld b 16 4 % 2 ^ 18, ep := fld b 20 4 % 2 ^ 18, unit := byteAt b 24 % 128, gen := fld b 26 2, prev := fld b 28 4 % 2 ^ 18, node }

/-- Is the (EPOCH, NODE_ID) greater (R225)? -/
def OwnRec.gt (a b : OwnRec) : Bool := decide (b.epoch < a.epoch) || (a.epoch == b.epoch && decide (b.node < a.node))

/-- Do two records concern one node? -/
def OwnRec.same (a b : OwnRec) : Bool := a.comp == b.comp && a.coll == b.coll && a.level == b.level && a.idx == b.idx

/-- Keeps the greatest record of a node (R221). -/
def keepRec (r : OwnRec) (s : State) : State :=
  match s.eng.recs.find? (·.same r) with
  | none => { s with eng.recs := s.eng.recs ++ [r] }
  | some q => if r.gt q then { s with eng.recs := modIf (·.same r) (fun _ => r) s.eng.recs } else s

/-- A descriptor's own record. -/
def ownNow (s : State) (d : Desc) (epoch : Nat) (abort : Bool) (prev : Nat) : OwnRec :=
  ownOf d.comp s.sec.nodeId (ownRecord s d epoch abort prev)

/-- This Talik is the Anchor of a work (R221, R257). -/
def anchorHere (k coll : Nat) (s : State) : State :=
  if s.eng.anchored.contains (k, coll) then s else { s with eng.anchored := s.eng.anchored ++ [(k, coll)] }

/-- Sends OWN_OFFER or OWN_ACCEPT; an accept for this Talik itself, as the Anchor, is kept at once. -/
def sendOwn (op dst : Nat) (d : Desc) (rec : List Byte) (s : State) : State :=
  if dst = selfEp s then (if op = 0x5D then anchorHere d.comp d.workId (keepRec (ownOf d.comp s.sec.nodeId rec) s) else s) else
  let p := { engPkt s d op dst 0 0 0 0 0 0 rec with tag := engTag s }
  if seconding s then s else
  useFree (sendDst (tileInp 0) 2 p none s)

/-- Where the owner of a node now is: the record of its level and index that leads on from an address, or the address. -/
def ownerAt (s : State) (k coll level : Nat) (idx : Option Nat) (a : Nat × Nat × Nat) : Nat × Nat × Nat :=
  match s.eng.recs.find? fun r => r.comp == k && r.coll == coll && r.level == level && !r.abort && decide (1 < r.epoch) &&
      (match idx with
        | some i => r.idx == i
        | none => r.prev == a.1) with
  | some r => (r.ep, r.unit, r.gen)
  | none => a

/-- The parent's owner (R221). -/
def parentAddr (s : State) (d : Desc) : Nat × Nat × Nat :=
  ownerAt s d.comp d.workId (d.level + 1) (if d.level + 1 = d.depth then some 0 else none) (d.parentEp, d.parentUnit, d.parentGen)

/-- The owner of child node k. -/
def childAddr (s : State) (d : Desc) (k : Nat) (m : Member) : Nat × Nat × Nat :=
  ownerAt s d.comp d.workId (d.level - 1) (some k) (m.ep, m.unit, m.gen)

/-- A descriptor has been accepted: it is active, its acceptance is logged, a Second hears of it, and its Anchor (R189, R221, R222). -/
def acceptDesc (d : Desc) (extra : List Byte) (s : State) : State × Gate :=
  let s := { s with eng.descs := s.eng.descs ++ [d] }
  let s := each d.shares (fun sh s => logInput sh.tile 0 d.comp (d.raw ++ extra) s) s
  let (s, g) := logOwn 1 d (d.raw ++ extra) s
  let s := keepRec (ownNow s d 1 false (selfEp s)) s
  (if d.kind = 1 then sendOwn 0x5D d.anchorEp d (ownRecord s d 1 false (selfEp s)) s else anchorHere d.comp d.workId s, g)

/-- Ends a post that waits, with a LOAD for RETRY_LATER. -/
def endPost (c : CmdRec) (status load : Nat) (s : State) : State :=
  let s := setQueue c.comp c.queue (fun q => { q with busy := if q.busy = some c then none else q.busy }) s
  reply c status load [] s

/-- A post has been accepted: its OK waits for the Partner where the work is mirrored (R222, R425). -/
def acceptPost (c : CmdRec) (g : Gate) (s : State) : State :=
  match g with
  | none => endPost c 0 0 s
  | some g => hold g (.short c []) s

/-- A commit of the work is logged (R216, R219, R257). -/
def commitWork (id phase : Nat) (s : State) : State × Gate :=
  let s := setDesc id (fun d => { d with commit := phase }) s
  match findDesc s id with
  | some d => logOwn 2 d [] s
  | none => (s, none)

end Sys2Proof.Machine
end

