-- ==== Sys2Proof/Machine/Collectives.lean ====
section
/-! DEFINITION. In-network collectives (chapter 7): nodes, folds and retirement, partials, results, releases, resend requests. -/

namespace Sys2Proof.Machine

/-! ### The node -/

def Desc.node? (d : Desc) : Option Node :=
  match d.work with
  | .node n => some n
  | _ => none

def setNode (id : Nat) (f : Node → Node) (s : State) : State :=
  setDesc id (fun d => match d.work with
    | .node n => { d with work := .node (f n) }
    | _ => d) s

/-- Does member k contribute (R212)? -/
def contributes (d : Desc) (n : Node) (k : Nat) : Bool := ((n.members[k]?).map fun m => d.coll != 4 || m.src).getD false
def nContrib (d : Desc) (n : Node) : Nat := if d.coll = 4 then (n.members.filter (·.src)).length else n.members.length

/-- Elements of chunk j (R214). -/
def chunkLen (d : Desc) (j : Nat) : Nat := min 512 (d.count - 512 * j)

/-- Segments of the accumulation window (R177): 64-bit accumulators take the room of pairs (Table 6-2). -/
def winSegs (d : Desc) : Nat := if d.mode = 0 then 14 else 7

/-- Segments of a share, and the chunks of one of them. -/
def nSegs (sh : ShareSt) : Nat := ceilDiv (sh.hi - sh.lo) 65536
def segChunks (sh : ShareSt) (k : Nat) : List Nat :=
  let a := sh.lo + k * 65536
  let b := min (a + 65536) sh.hi
  (List.range (ceilDiv b 512 - a / 512)).map (a / 512 + ·)

/-- Packets of a descriptor that are out, of a kind. -/
def outOf (s : State) (id : Nat) (f : SentFor → Bool) : Bool := s.eng.sent.any fun e => e.desc == id && f e.what
def isPart : SentFor → Bool
  | .part _ => true
  | _ => false
def isResult : SentFor → Bool
  | .result _ => true
  | _ => false
def isRelease : SentFor → Bool
  | .release => true
  | _ => false

/-! ### Acceptance (R208, R210 to R212, Table 7-9) -/

/-- The body's own row of Table 7-9, and its reserved fields (R5). -/
def collBad (s : State) (d : Desc) : Bool :=
  !(decide (1 ≤ d.coll) && decide (d.coll ≤ 5)) ||
  !(if 4 ≤ d.coll then d.redOp == 0 else decide (1 ≤ d.redOp) && (decide (d.redOp ≤ 3) || (fmtInt d.inFmt && decide (d.redOp ≤ 6)))) ||
  decide (16 ≤ d.b 2 1) || d.depth == 0 || d.level == 0 || decide (d.depth < d.level) || decide (4 ≤ d.b 3 1) ||
  d.nmemb == 0 || decide (1024 < d.nmemb) || (d.coll == 5 && d.count != 1) ||
  (d.coll == 3 && (d.rsElems == 0 || d.rsElems % 512 != 0)) || (d.mcast && groupComp s d.mcg != d.comp) ||
  decide (4096 ≤ d.b 6 2) || decide (2 ^ 18 ≤ d.b 8 4) || decide (128 ≤ d.b 12 1) || decide (128 ≤ d.b 13 1) ||
  decide (2 ^ 18 ≤ d.b 16 4) || decide (2 ^ 18 ≤ d.b 20 4) || decide (1024 ≤ d.b 24 2) || decide (2 ^ 46 ≤ d.b 32 8) ||
  d.mtabAddr % 16 != 0 || decide (2 ^ 18 ≤ d.b 48 4) || d.b 52 12 != 0

/-- A member table entry (Table 7-3). -/
def memberOf (b : List Byte) : Member :=
  { ep := fld b 0 4 % 2 ^ 18, unit := byteAt b 4 % 128, child := bit (byteAt b 4) 7, src := bit (byteAt b 5) 0, gen := fld b 6 2
    ridx := fld b 8 4 % 2 ^ 18 }

/-- An entry breaks R212, a reserved field is not zero, or a receiver index lies past COUNT. -/
def entryBad (d : Desc) (b : List Byte) : Bool :=
  let m := memberOf b
  decide (2 ^ 18 ≤ fld b 0 4) || decide (2 ≤ byteAt b 5) || decide (2 ^ 18 ≤ fld b 8 4) || fld b 12 4 != 0 ||
  (m.child != decide (1 < d.level)) || (m.src && d.coll != 4) ||
  (d.coll == 3 && !m.child && decide (d.count ≤ m.ridx * d.rsElems))

/-- The table breaks R212 (Table 7-9). -/
def tableBad (d : Desc) (es : List (List Byte)) : Bool :=
  es.any (entryBad d) ||
  (d.coll == 4 && (let n := (es.filter fun b => bit (byteAt b 5) 0).length
    decide (1 < n) || (d.isRoot && n != 1)))

/-- A new descriptor of a unit. -/
def newDesc (s : State) (raw : List Byte) (g : Nat) (w : Work) : Desc :=
  let count := fld raw 24 8 % 2 ^ 46
  { id := s.xlt.nextId, unit := byteAt raw 2 % 128, raw, shares := splitOver s (byteAt raw 2) g count, work := w, seq := s.xlt.nextId }

/-- COLL_POST: the descriptor rows, the body, and the read of the member table (R211). -/
def collPostBody (c : CmdRec) (s : State) : CmdRes × State :=
  let r := descRow s c.params
  if r.status ≠ 0 then (.done r.status [] r.load, rowCount r s) else
  let d := newDesc s c.params 1024 (.node {})
  if collBad s d then bad 0x11 s else
  let crest := unitCrest s d.unit
  let (id, s) := issueRead d.comp d.job d.mtabSpace d.mtabAddr (16 * d.nmemb) 4 crest s
  (.held, { s with eng.reads := mset s.eng.reads id (.table c) })

/-! ### Sending down (R217, R219) -/

/-- Sends a result chunk (some chunk) or the release to the receivers of a node. -/
def sendDown (id : Nat) (inp phase addr : Nat) (data : List Byte) (what : SentFor) (gate : Gate) (s : State) : State :=
  match findDesc s id with
  | none => s
  | some d => match d.node? with
    | none => s
    | some n =>
      let gen := (eunit s d.unit).gen
      let rel := phase == 0xFFFF
      let uni := fun dst unit gen k s =>
        sendEng d inp 2 (engPkt s d 0x51 dst unit d.outFmt gen phase k addr data) what none [] gate s
      let s := if d.isRoot && d.coll == 1 then uni d.destEp d.unit gen 0 s else s
      let ks := if d.coll = 1 ∧ !rel then [] else (List.range n.members.length).zip n.members
      let kids := ks.filter fun k => k.2.child
      let eps := ks.filter fun k => !k.2.child && (rel || d.coll != 3 ||
        (decide (k.2.ridx * d.rsElems ≤ addr) && decide (addr < (k.2.ridx + 1) * d.rsElems)))
      let s := each kids (fun k s =>
        let a := childAddr s d k.1 k.2
        uni a.1 a.2.1 a.2.2 k.1 s) s
      if d.mcast && !rel then
        if eps = [] then s else
        sendEng d inp 2 (engPkt s d 0x51 0x3FFFF d.unit d.outFmt gen phase 0 addr data) what (some d.mcg) ((eps.map (·.2.ep)).eraseDups) gate s
      else each eps (fun k s => uni k.2.ep d.unit gen k.1 s) s

/-- Resend requests to every contributing member (R226, R227). -/
def sendResends (id : Nat) (s : State) : State :=
  match findDesc s id with
  | none => s
  | some d => match d.node? with
    | none => s
    | some n =>
      let gen := (eunit s d.unit).gen
      each ((List.range n.members.length).zip n.members) (fun k s =>
        if !contributes d n k.1 then s else
        let a := if k.2.child then childAddr s d k.1 k.2 else (k.2.ep, d.unit, gen)
        count 0x05800410 (sendEng d (tileInp 0) 2 (engPkt s d 0x51 a.1 a.2.1 d.outFmt a.2.2 0xFFFE k.1 0 []) .resend none [] none s)) s

/-- Abort notices to every endpoint member that has not answered its release (R228, R229). -/
def abortNotices (d : Desc) (s : State) : State :=
  match d.node? with
  | none => s
  | some n =>
    let gen := (eunit s d.unit).gen
    each ((List.range n.members.length).zip n.members) (fun k s =>
      if k.2.child ∨ k.2.released then s else
      let p := { engPkt s d 0x51 k.2.ep d.unit d.outFmt gen 0xFFFD k.1 0 [] with tag := engTag s }
      useFree (launch (tileInp 0) 2 p none none s)) s

/-! ### How a node goes on (R216, R219) -/

/-- Have all shares retired their last segment? A dead share counts as ended. -/
def allRetired (d : Desc) (n : Node) : Bool :=
  (d.shares.zip n.segs).all fun p => p.1.dead || decide (nSegs p.1 ≤ p.2)

/-- Commits, release and completion, as far as the node has come (R216, R219, R29). -/
def nodeStep (id : Nat) (s : State) : State :=
  match findDesc s id with
  | none => s
  | some d => match d.node? with
    | none => s
    | some n =>
      if d.posting ∨ d.standby ∨ movingNow s d ∨ !(n.upDone || allRetired d n) then s else
      let s := setNode id (fun n => { n with upDone := true }) s
      if outOf s id isPart ∨ outOf s id isResult then s
      else if d.shares.any (·.dead) then finishDesc id ((d.fail.map (·.2)).getD 0x60) n.emitted none (answerHeld d 0x60 s)
      else
        let done := if d.isRoot then d.depth + 1 else d.level
        let (s, g) := if d.commit < done then commitWork id done s else (s, none)
        let go := !n.relSent && (d.isRoot || n.rel.isSome)
        let s := if go then
            setNode id (fun n => { n with relSent := true }) (sendDown id (tileInp ((d.shares.headD { tile := 0, lo := 0, hi := 0 }).tile)) 0xFFFF 0 [] .release g s)
          else s
        if (go ∨ n.relSent) ∧ !outOf s id isRelease then
          let s := match n.rel with
            | some w => engReply w.lp w.tc w.pkt 0 0 [] (tileInp 0) s
            | none => s
          finishDesc id 0 d.count g s
        else s

/-- Emits a retired chunk: to the parent, or rounded once and sent down by the root (R216). -/
def emitChunk (id tile j : Nat) (s : State) : State :=
  match findDesc s id with
  | none => s
  | some d => match d.node? with
    | none => s
    | some n =>
      let acc := (mgetD n.chunks j {}).acc
      let s := setNode id (fun n => { n with chunks := mdel n.chunks j }) s
      let inp := tileInp tile
      let out := fun s => setNode id (fun n => { n with emitted := n.emitted + chunkLen d j }) s
      if !d.isRoot then
        if nContrib d n = 0 then s else
        let s := out s
        let a := parentAddr s d
        let data := (acc.map (packPartial d.mode)).flatten
        sendEng d inp 2 (engPkt s d 0x52 a.1 a.2.1 (partialFmt d.mode) a.2.2 (d.level + 1) d.myIndex (512 * j) data) (.part j) none [] none s
      else
        let s := out s
        if d.coll = 5 then s else
        let (bs, fl) := encodeAccs d.mode d.outFmt acc
        let s := setDesc id (fun d => { d with flags := d.flags ||| fl }) s
        let s := setNode id (fun n => { n with results := mset n.results j bs }) s
        sendDown id inp (d.depth + 1) (512 * j) bs (.result j) none s

/-- Retires the segments of share i that every contributor has delivered, lowest first (R177). -/
def retireShare (id i : Nat) : Nat → State → State
  | 0, s => s
  | fuel + 1, s =>
    match findDesc s id with
    | none => s
    | some d => match d.node?, d.shares[i]? with
      | some n, some sh =>
        let k := n.segs.getD i 0
        if sh.dead ∨ nSegs sh ≤ k then s else
        let cs := segChunks sh k
        if nContrib d n = 0 ∨ cs.all (fun j => decide ((mgetD n.chunks j {}).who.length = nContrib d n)) then
          let s := setNode id (fun n => { n with segs := n.segs.set i (k + 1) }) s
          retireShare id i fuel (each cs (fun j s => emitChunk id sh.tile j s) s)
        else s
      | _, _ => s

/-- Retires what can be retired on every share, and lets the node go on. -/
def advanceNode (id : Nat) (s : State) : State :=
  match findDesc s id with
  | none => s
  | some d =>
    let s := (List.range d.shares.length).foldl (fun s i => retireShare id i (nSegs (d.shares.getD i { tile := 0, lo := 0, hi := 0 }) + 1) s) s
    nodeStep id s

/-- MEMBER_TABLE_READ_DONE (R211, R212, R221, R222, Table 7-9). -/
def memberTableReadDone (id : Nat) (s : State) : State :=
  match mget s.eng.reads id with
  | some (.table c) =>
    match readDone s id with
    | none => s
    | some (st, b) =>
      let s := { dropRead id s with eng.reads := mdel s.eng.reads id }
      let r := descRow s c.params
      let s :=
        if r.status ≠ 0 then endPost c r.status r.load (rowCount r s)
        else if st ≠ 0 then endPost c st 0 s
        else
          let d := newDesc s c.params 1024 (.node {})
          let es := (List.range d.nmemb).map fun k => slice b (16 * k) 16
          if collBad s d ∨ tableBad d es then endPost c 0x11 0 s
          else
            let d := { d with work := .node { members := es.map memberOf, segs := d.shares.map fun _ => 0 } }
            let (s, g) := acceptDesc d b { s with xlt.nextId := s.xlt.nextId + 1 }
            advanceNode d.id (acceptPost c g s)
      settleQueues (intake s) s
  | _ => s

/-! ### Packets at a node (Tables 6-8 and 7-9) -/

/-- Folds a chunk's data into its accumulators (R199, R200, R209, R214). -/
def foldChunk (d : Desc) (ca : ChunkAcc) (c fmt n : Nat) (data : List Byte) : ChunkAcc × Nat :=
  let out := (List.range n).map fun i =>
    let (x, f) := decodeAcc fmt data i
    let (a, g) := accFold d.mode d.redOp ca.acc[i]? x
    (a, f ||| g)
  ({ who := ca.who ++ [c], acc := out.map (·.1) }, orFlags (out.map (·.2)))

/-- A contribution, barrier arrival or partial at a node. -/
def nodeFold (lp tc : Nat) (p : Kmt) (d : Desc) (n : Node) (i : Nat) (sh : ShareSt) (s : State) : State :=
  let ph := subPhase p
  let c := subContrib p
  let j := p.addr / 512
  let seg := (p.addr - sh.lo) / 65536
  let base := n.segs.getD i 0
  let known := ph == d.level && p.addr % 512 == 0 && contributes d n c
  let inp := tileInp sh.tile
  let ca := mgetD n.chunks j {}
  if known && (decide (seg < base) || ca.who.contains c) then engReply lp tc p 0 0 [] inp (dupCount d s)
  else if base + winSegs d ≤ seg then engReply lp tc p 0x02 12 [] inp s
  else
    let want := if 1 < d.level then 0x52 else if d.coll = 5 then 0x53 else 0x50
    let m := chunkLen d j
    let fmt := if want = 0x52 then partialFmt d.mode else d.inFmt
    let len := if d.coll = 5 then 0 else if want = 0x52 then m * (fmtBits fmt / 8) else dataLen fmt m
    if p.opcode ≠ want ∨ !known ∨ (engData p).length ≠ len then engReply lp tc p 0x11 0 [] inp s
    else if movingNow s d then engReply lp tc p 0x02 12 [] inp s
    else
      let (ca, fl) := if d.coll = 5 then ({ ca with who := ca.who ++ [c] }, 0) else foldChunk d ca c fmt m (engData p)
      let s := logInput sh.tile 1 d.comp (kmtBytes p) s
      let s := setDesc d.id (fun d => { d with flags := d.flags ||| fl }) (setNode d.id (fun n => { n with chunks := mset n.chunks j ca }) s)
      advanceNode d.id (engReply lp tc p 0 0 [] inp s)

/-- A resend request from the parent's owner (R227). -/
def nodeResend (d : Desc) (s : State) : State :=
  let s := { s with eng.sent := s.eng.sent.filter fun e => e.desc != d.id || !(isPart e.what) }
  let s := setNode d.id (fun n => { n with
    chunks := [], segs := n.segs.map fun _ => 0, upDone := false, emitted := 0
    results := if d.early then n.results else [], down := if d.early then n.down else [] }) s
  let s := setDesc d.id (fun d => { d with commit := min d.commit (d.level - 1) }) s
  advanceNode d.id (sendResends d.id s)

/-- A result chunk, release or resend request at a node (R217 to R219, R227, Table 7-9). -/
def nodeResult (lp tc : Nat) (p : Kmt) (d : Desc) (n : Node) (s : State) : State :=
  let ph := subPhase p
  let data := engData p
  let inp := tileInp ((d.shares.headD { tile := 0, lo := 0, hi := 0 }).tile)
  let j := p.addr / 512
  let chunk := ph == d.depth + 1 && p.addr % 512 == 0 && data.length == dataLen d.outFmt (chunkLen d j) && d.coll != 5
  let ctl := (ph == 0xFFFF || ph == 0xFFFE) && p.addr == 0 && data == []
  if d.isRoot ∨ !(chunk || ctl) then engReply lp tc p 0x11 0 [] inp s
  else if movingNow s d then engReply lp tc p 0x02 12 [] inp s
  else if chunk then
    if (mget n.results j).isSome then engReply lp tc p 0 0 [] inp (dupCount d s)
    else
      let inp := tileInp (((shareAt d p.addr).map (·.2.tile)).getD 0)
      let s := logInput (((shareAt d p.addr).map (·.2.tile)).getD 0) 1 d.comp (kmtBytes p) s
      let s := setNode d.id (fun n => { n with results := mset n.results j data, down := mset n.down j { lp, tc, pkt := p } }) s
      let s := sendDown d.id inp ph p.addr data (.result j) none s
      if outOf s d.id (· == .result j) then s
      else nodeStep d.id (engReply lp tc p 0 0 [] inp (setNode d.id (fun n => { n with down := mdel n.down j }) s))
  else if ph = 0xFFFF then nodeStep d.id (setNode d.id (fun n => { n with rel := some { lp, tc, pkt := p } }) s)
  else nodeResend d (engReply lp tc p 0 0 [] inp s)

/-- A packet for a collective node. -/
def nodePacket (lp tc : Nat) (p : Kmt) (d : Desc) (s : State) : State :=
  match d.node? with
  | none => s
  | some n =>
    if p.opcode = 0x51 then nodeResult lp tc p d n s
    else match shareAt d p.addr with
      | some (i, sh) => nodeFold lp tc p d n i sh s
      | none => s

/-! ### Answers to a node's packets -/

/-- A response to a packet of a unit: RETRY_LATER sends it again, OK is handed on, any other status is final (R140, R141). -/
def engAnswer (f : ESent → State → State) (lp tc : Nat) (p : Kmt) (s : State) : State :=
  if !engTakes s lp ∨ !p.rsp then s
  else if p.dst ≠ selfEp s then (if lp = 0x3FF then s else msgResponse lp tc p s)
  else
    let s := takeRx lp tc p s
    match findSent s p with
    | none => s
    | some e =>
      if p.status = 0x02 then sendAgain e p.src s
      else f e (logInput (e.inp / 73 * 16 + (e.inp % 73 - 24)) 1 p.comp (kmtBytes p) s)

/-- EPART_RESPONSE at a node (R216): the up phase commits when every partial is answered OK. -/
def partAnswered (p : Kmt) (e : ESent) (s : State) : State :=
  if p.status ≠ 0 then s else
  let (_, s) := takeAnswer e p.src s
  nodeStep e.desc s

/-- ERESULT_RESPONSE (R218, R219). -/
def resultAnswered (p : Kmt) (e : ESent) (s : State) : State :=
  if p.status ≠ 0 then s else
  let (last, s) := takeAnswer e p.src s
  match e.what with
  | .release =>
    nodeStep e.desc (setNode e.desc (fun n => { n with members := modIf (·.ep == p.src) (fun m => { m with released := true }) n.members }) s)
  | .result j =>
    if !last ∨ outOf s e.desc (· == .result j) then s else
    let w := ((findDesc s e.desc).bind (·.node?)).bind fun n => mget n.down j
    let s := setNode e.desc (fun n => { n with down := mdel n.down j }) s
    let s := match w with
      | some w => engReply w.lp w.tc w.pkt 0 0 [] e.inp s
      | none => s
    nodeStep e.desc s
  | _ => s

/-! ### Deadlines and failures -/

/-- The tile that first finds the miss: the first share that still works, or the unit (R202). -/
def missTile (d : Desc) (busy : Nat → Bool) : Nat :=
  (((List.range d.shares.length).zip d.shares).find? fun p => !p.2.dead && busy p.1).elim d.unit (·.2.tile)

/-- A node's deadline has passed (R202, R229). -/
def nodeExpire (d : Desc) (n : Node) (s : State) : State :=
  let t := missTile d fun i => decide (n.segs.getD i 0 < nSegs (d.shares.getD i { tile := 0, lo := 0, hi := 0 }))
  let s := setDesc d.id (fun d => { d with fail := some (t, 0x40) }) s
  finishDesc d.id 0x40 n.emitted none (answerHeld d 0x40 (abortNotices d s))

def execCollPost (comp q : Nat) (s : State) : Host.Outcome State Fault Refusal :=
  .next (runCmd comp q 0x30 anyAct collPostBody s)
def execMemberTableReadDone (id : Nat) (s : State) : Host.Outcome State Fault Refusal := .next (memberTableReadDone id s)

end Sys2Proof.Machine
end

