-- ==== Sys2Proof/Machine/Gather.lean ====
section
/-! DEFINITION. Embedding tables, gather and pooling (chapter 8): TABLE_PUBLISH and versions, rounds, rows, pooling, delivery. -/

namespace Sys2Proof.Machine

/-! ### Table records (R234) -/

def recFmt (b : List Byte) : Nat := byteAt b 1
def recWidth (b : List Byte) : Nat := fld b 2 2
def recRows (b : List Byte) : Nat := fld b 8 8
def recShards (b : List Byte) : Nat := byteAt b 16
def recDelete (b : List Byte) : Bool := bit (byteAt b 17) 0
def recRing (b : List Byte) : Nat := fld b 20 2 % 1024
def recStride (b : List Byte) : Nat := fld b 24 4
def recHot (b : List Byte) : List Nat := (List.range (byteAt b 18)).map fun k => fld b (32 + 4 * k) 4
/-- Shard entry k (Table 8-2). -/
def shardAt (b : List Byte) (k : Nat) : List Byte := slice b (96 + 32 * k) 32
def shardLo (b : List Byte) (k : Nat) : Nat := fld (shardAt b k) 0 4
def shardEp (b : List Byte) (k : Nat) : Nat := fld (shardAt b k) 4 4 % 2 ^ 18
def shardSpace (b : List Byte) (k : Nat) : Nat := fld (shardAt b k) 18 2 % 1024
def shardBase (b : List Byte) (k : Nat) : Nat := fld (shardAt b k) 24 8 % 2 ^ 46
/-- First row past shard k. -/
def shardHi (b : List Byte) (k : Nat) : Nat := if k + 1 < recShards b then shardLo b (k + 1) else recRows b
/-- The shard that holds row r. -/
def shardOf (b : List Byte) (r : Nat) : Nat := (((List.range (recShards b)).filter fun k => decide (shardLo b k ≤ r)).getLast?).getD 0
/-- Elements of a row. -/
def rowElems (b : List Byte) : Nat := recWidth b / max 1 (fmtBits (recFmt b) / 8)

def gtable (s : State) (t : Nat) : Option Table := mget s.eng.tables t
/-- The version that is current. -/
def curVer (t : Table) : Option Ver := t.vers.find? (·.current)
/-- Is it a table of the composition, not a shadow? -/
def ownTable (s : State) (t k : Nat) : Bool := ((gtable s t).map fun x => x.comp == k && !x.shadow).getD false

/-- Rows 1 to 5 of R235: status, and none when the record passes. -/
def recordRow (s : State) (c : CmdRec) (b : List Byte) : Option Nat :=
  let t := byteAt b 0
  let old := gtable s t
  let half := mirrorBit s c.comp && (decide (128 ≤ t) != bit (reg s 0x0A000000) 1)
  let cur := old.bind curVer
  let ks := List.range (recShards b)
  let bad :=
    !([1, 2, 3, 4, 5, 0x0B, 0x0C].contains (recFmt b)) || decide (recWidth b < 32) || decide (2048 < recWidth b) || recWidth b % 32 != 0 ||
    fld b 4 4 == 0 || recRows b == 0 || decide (2 ^ 32 < recRows b) || recShards b == 0 || decide (64 < recShards b) ||
    decide (2 ≤ byteAt b 17) || decide (16 < byteAt b 18) || byteAt b 19 != 0 || decide (1024 ≤ fld b 20 2) || fld b 22 2 != 0 ||
    recStride b % 32 != 0 || decide (recStride b < recWidth b) || decide (1048576 < recStride b) || fld b 28 4 != 0 ||
    !(zeroAt b (32 + 4 * byteAt b 18) (64 - 4 * byteAt b 18)) ||
    !(((findRing s c.comp (recRing b)).map fun r => decide (6 ≤ r.esize)).getD false) ||
    shardLo b 0 != 0 || ks.any (fun k => decide (shardHi b k ≤ shardLo b k)) || ks.any (fun k => decide (recRows b ≤ shardLo b k)) ||
    (recHot b).any (fun r => decide (recRows b ≤ r)) ||
    ks.any (fun k =>
      let e := shardAt b k
      decide (2 ^ 18 ≤ fld e 4 4) || decide (2 ^ 18 ≤ fld e 8 4) || decide (128 ≤ byteAt e 12) || decide (128 ≤ byteAt e 13) ||
      decide (1024 ≤ fld e 18 2) || fld e 20 4 != 0 || decide (2 ^ 46 ≤ fld e 24 8) ||
      (shardEp b k == selfEp s && (!(((mget s.xlt.spaces (shardSpace b k)).map fun p => p.comp == c.comp && !p.shadow).getD false) ||
        s.dir.regions.any fun r => r.2.mode == 2 && r.2.space == shardSpace b k && decide (r.2.base < shardBase b k +
          (shardHi b k - shardLo b k) * recStride b) && decide (shardBase b k < r.2.base + r.2.size))))
  if half then some 0x11
  else if (old.map fun x => x.comp != c.comp).getD false then some 0x13
  else if !recDelete b && bad then some 0x11
  else if !recDelete b && ((cur.map fun v => recFmt v.bytes != recFmt b || recWidth v.bytes != recWidth b).getD false) then some 0x11
  else if fld b 4 4 ≤ (old.map (·.last)).getD 0 then some 0x31
  else if 4 ≤ (old.map (·.vers.length)).getD 0 then some 0x02
  else none

/-- Is a batch or standby copy bound to the version (R236)? -/
def verRefs (s : State) (t v : Nat) : Nat :=
  (s.eng.descs.filter fun d => match d.work with
    | .batch b => b.table == t && b.version == v
    | _ => false).length

/-- A retiring version whose count has reached zero goes (R236); the table ID is free once no version is left (R235). -/
def retireVer (t : Nat) (v : Ver) (s : State) : State :=
  match gtable s t with
  | none => s
  | some x =>
    let vs := x.vers.filter (· != v)
    let left : SMap Table := if vs = [] then mdel s.eng.tables t else mset s.eng.tables t { x with vers := vs }
    let s := { s with eng.tables := left }
    if x.shadow then s else
    let s := (logRec 0 { rtype := 0x0B, comp := x.comp, body := le 1 t ++ zeros 3 ++ le 4 v.version } s).1
    let s := count 0x05800488 s
    let s := if bit (reg s 0x05800020) 0 then attn 4 s else s
    ringPut x.comp (recRing v.bytes) { type := 5, status := 0, payload := le 4 t ++ le 4 v.version } s

/-- Every version that can retire does (VERSION_RETIRE). -/
def retireVersions (s : State) : State :=
  s.eng.tables.foldl (fun s t => each (t.2.vers.filter fun v => !v.current && !v.held && verRefs s t.1 v.version == 0) (retireVer t.1) s) s

/-- Row 6 of R235: the version becomes current, or a DELETE leaves none; the version that was current begins to retire. -/
def applyRecord (k : Nat) (b : List Byte) (shadow : Bool) (s : State) : State :=
  let t := byteAt b 0
  let vs := ((gtable s t).map (·.vers)).getD []
  let vs := vs.map fun v => { v with current := false }
  let vs := if recDelete b then vs else vs ++ [{ version := fld b 4 4, bytes := b, held := shadow }]
  let all : SMap Table := if vs = [] then mdel s.eng.tables t else mset s.eng.tables t { comp := k, last := fld b 4 4, vers := vs, shadow }
  retireVersions { s with eng.tables := all }

/-- Ends a TABLE_PUBLISH, with the last version published where it has one to return (R235). -/
def endPublish (c : CmdRec) (status t : Nat) (s : State) : State :=
  let s := if status = 0x31 then count 0x05800480 s else s
  let s := setQueue c.comp c.queue (fun q => { q with busy := if q.busy = some c then none else q.busy }) s
  let v := ((gtable s t).map (·.last)).getD 0
  reply c status (if status = 0x02 then 12 else 0) (if status = 0 ∨ status = 0x31 then le 4 v ++ zeros 4 else []) s

/-- A table record has been read: it is checked, and on a mirrored composition its CONFIG record goes first (R235, R422). -/
def publishRecord (c : CmdRec) (b : List Byte) (s : State) : State :=
  match recordRow s c b with
  | some st => endPublish c st (byteAt b 0) s
  | none =>
    let (s, g) := logRec 0 (configRec c b) s
    match g with
    | some g => hold g (.table c b) s
    | none => endPublish c 0 (byteAt b 0) (applyRecord c.comp b false s)

/-- TABLE_PUBLISH: the read of the record's header. -/
def tablePublishBody (c : CmdRec) (s : State) : CmdRes × State :=
  let (id, s) := issueRead c.comp c.job (pf c 0 2) (pf c 8 8) 96 4 0 s
  (.held, { s with eng.reads := mset s.eng.reads id (.record c false) })

/-- A read of a table record that has ended: the header leads to the read of the whole record, the whole record to its checks. -/
def recordRead (id : Nat) (c : CmdRec) (whole : Bool) (s : State) : State :=
  match readDone s id with
  | none => s
  | some (st, b) =>
    let s := { dropRead id s with eng.reads := mdel s.eng.reads id }
    if st ≠ 0 then endPost c st 0 s
    else if !whole ∧ !recDelete b ∧ 1 ≤ recShards b ∧ recShards b ≤ 64 then
      let (i, s) := issueRead c.comp c.job (pf c 0 2) (pf c 8 8) (96 + 32 * recShards b) 4 0 s
      { s with eng.reads := mset s.eng.reads i (.record c true) }
    else publishRecord c b s

/-- Record reads that have their data go on. -/
def settleRecords : Nat → State → State
  | 0, s => s
  | n + 1, s =>
    match s.eng.reads.findSome? fun p => match p.2 with
      | .record c w => if (readDone s p.1).isSome then some (p.1, c, w) else none
      | _ => none with
    | none => s
    | some (id, c, w) => settleRecords n (recordRead id c w s)

/-! ### Batches -/

def Desc.batch? (d : Desc) : Option Batch :=
  match d.work with
  | .batch b => some b
  | _ => none

def setBatch (id : Nat) (f : Batch → Batch) (s : State) : State :=
  setDesc id (fun d => match d.work with
    | .batch b => { d with work := .batch (f b) }
    | _ => d) s

/-- Record of the version that a batch is bound to. -/
def boundRec (s : State) (b : Batch) : List Byte :=
  ((((gtable s b.table).map (·.vers)).getD []).find? (·.version == b.version)).elim [] (·.bytes)

/-- Changes a share of a batch. -/
def setGShare (id i : Nat) (f : GShare → GShare) (s : State) : State :=
  setBatch id (fun b => { b with shares := (List.range b.shares.length).zip b.shares |>.map fun p => if p.1 = i then f p.2 else p.2 }) s

/-- Changes the round of a share that starts at a bag. -/
def setRound (id i lo : Nat) (f : Round → Round) (s : State) : State :=
  setGShare id i (fun g => { g with rounds := modIf (·.lo == lo) f g.rounds }) s

/-- Bags of a round (R243). -/
def roundBags (d : Desc) (rec : List Byte) : Nat :=
  let e := rowElems rec
  min 1024 (917504 / (64 + e * (if d.mode = 0 then 4 else 8)))

/-- A bag's round in its share. -/
def roundAt (b : Batch) (i bag : Nat) : Option Round :=
  (b.shares[i]?).bind fun g => g.rounds.find? fun r => decide (r.lo ≤ bag) && decide (bag < r.lo + r.n)

/-- De-duplication entries in use: one head a row, one a bag and row (R244). -/
def heads (r : Round) : List Nat := ((r.bags.map fun p => p.2.counts.map (·.1)).flatten).eraseDups
def dedupUsed (r : Round) : Nat := (heads r).length + sum (r.bags.map fun p => p.2.counts.length)

/-- Batches of a unit in order of acceptance. -/
def batchesOn (s : State) (u : Nat) : List Desc :=
  (s.eng.descs.filter fun d => d.unit == u && !d.standby && d.batch?.isSome).mergeSort fun a b => decide (a.seq ≤ b.seq)

/-- Rounds open on a tile. -/
def tileRounds (s : State) (tile : Nat) : Nat :=
  sum (s.eng.descs.map fun d => match d.work with
    | .batch b => sum ((d.shares.zip b.shares).map fun p => if p.1.tile = tile then p.2.rounds.length else 0)
    | _ => 0)

/-- Bytes of rows requested and not pooled, on a tile (R248). -/
def rowBytesOut (s : State) (tile : Nat) : Nat :=
  sum (s.eng.descs.map fun d => match d.work with
    | .batch b =>
      recWidth (boundRec s b) * sum ((d.shares.zip b.shares).map fun p => if p.1.tile = tile then sum (p.2.rounds.map (·.out.length)) else 0)
    | _ => 0)

/-- Counts on a unit's tile. -/
def tileCount (u off ropeOff : Nat) (s : State) : State := count (unitCtr u off ropeOff) s

/-! ### Rows (R248 to R251) -/

/-- Rows that one GROWREQ may carry (Table 8-3). -/
def growMax (width : Nat) : Nat := min 128 (4096 / max 1 width)

/-- Sends a GROWREQ for rows of a shard (R249, Table 8-6). -/
def sendGrow (d : Desc) (rec : List Byte) (tile share : Nat) (lo : Option Nat) (k : Nat) (rows : List Nat) (alone : Bool) (s : State) : State :=
  let e := shardAt rec k
  let rel := rows.map (· - shardLo rec k)
  let data := le 2 (shardSpace rec k) ++ le 2 rows.length ++ le 2 (recWidth rec) ++ zeros 2 ++ le 4 (recStride rec) ++ zeros 4 ++
    le 8 (shardBase rec k) ++ (rel.map (le 4)).flatten
  sendEng d (tileInp tile) 5 (engPkt s d 0x55 (shardEp rec k) (byteAt e 12 % 128) d.inFmt (fld e 14 2) 1 0 (rel.headD 0) data)
    (.rows share lo k rows alone false) none [] none s

/-- Counts row fetches of a batch (R255, R261). -/
def countRows (d : Desc) (n : Nat) (s : State) : State :=
  let s := setBatch d.id (fun b => { b with rows := b.rows + n }) s
  if conf s d.comp then s else countN (unitCtr d.unit 0x150 0x78) n s

/-- The endpoint ID at which a shard is local: a Second stands for its Leader (R438). -/
def unitEp (s : State) : Nat := if seconding s then s.flt.second.leader else selfEp s

/-- A read of a unit. A Second issues none: it waits for the INPUT record (R438). -/
def unitRead (k job space a n tc crest : Nat) (s : State) : Nat × State :=
  if seconding s then
    let (id, s) := newId s
    (id, { s with reads := mset s.reads id { comp := k, pieces := [{ hbm := false, addr := a, len := n }] } })
  else issueRead k job space a n tc crest s

/-- Requests rows of one kind: a local row by a read, rows of another Talik's shard together. -/
def fetchRows (d : Desc) (rec : List Byte) (tile share : Nat) (lo : Option Nat) (k : Nat) (rows : List Nat) (s : State) : State :=
  let s := countRows d rows.length s
  if shardEp rec k = unitEp s then
    each rows (fun r s =>
      let (id, s) := unitRead d.comp d.job (shardSpace rec k) (shardBase rec k + (r - shardLo rec k) * recStride rec) (recWidth rec) 5 (tile / 16 % 4) s
      let f := match lo, d.batch? with
        | some lo, _ => ReadFor.row d.id share lo r
        | none, some b => .hot tile b.table b.version r
        | none, none => .hot tile 0 0 r
      { s with eng.reads := mset s.eng.reads id f }) s
  else sendGrow d rec tile share lo k rows false s

/-- The rows to be requested next together: of one remote shard, or one local row. -/
def nextRows (s : State) (rec : List Byte) (todo : List Nat) (room : Nat) : Nat × List Nat :=
  let k := shardOf rec (todo.headD 0)
  if shardEp rec k = unitEp s then (k, todo.take (min 1 room))
  else (k, (todo.filter fun r => shardOf rec r == k).take (min room (growMax (recWidth rec))))

/-- Requests a round's rows as far as 224 KiB allow (R248, R249). -/
def requestRows (id i lo : Nat) : Nat → State → State
  | 0, s => s
  | fuel + 1, s =>
    match findDesc s id with
    | none => s
    | some d => match d.batch?, d.shares[i]? with
      | some b, some sh =>
        match roundAt b i lo with
        | none => s
        | some r =>
          let rec' := boundRec s b
          let room := (229376 - rowBytesOut s sh.tile) / max 1 (recWidth rec')
          let (k, rows) := nextRows s rec' r.todo room
          if rows = [] then s else
          let s := setRound id i lo (fun r => { r with todo := r.todo.filter (!rows.contains ·), out := r.out ++ rows }) s
          requestRows id i lo fuel (fetchRows d rec' sh.tile i (some lo) k rows s)
      | _, _ => s

/-- Hot rows that nothing holds and nothing is loading are requested (R247). -/
def loadHot (d : Desc) (share tile : Nat) (s : State) : State :=
  match d.batch?, mget s.eng.hot tile with
  | some b, some h =>
    let rec' := boundRec s b
    let busy := fun r => (mget h.rows r).isSome || (mget h.failed r).isSome ||
      (s.eng.reads.any fun p => p.2 == .hot tile b.table b.version r) ||
      s.eng.sent.any fun e => match e.what, findDesc s e.desc with
        | .rows sh none _ rs _ _, some q => rs.contains r && ((q.shares[sh]?).map (·.tile)) == some tile
        | _, _ => false
    let want := (recHot rec').eraseDups.filter fun r => !busy r
    let ks := (want.map (shardOf rec')).eraseDups
    each ks (fun k s =>
      let rs := want.filter fun r => shardOf rec' r == k
      each (chunksOf (if shardEp rec' k = unitEp s then 16 else max 1 (growMax (recWidth rec'))) 16 rs)
        (fun rs s => fetchRows d rec' tile share none k rs s) s) s
  | _, _ => s

/-! ### Rounds (R243, R245 to R247) -/

/-- May a share's first round open: the batches before it on the unit have ended, or with PREFETCH their last rounds have
closed on the tile (R247)? -/
def mayBegin (s : State) (d : Desc) (tile : Nat) : Bool :=
  ((batchesOn s d.unit).filter fun e => decide (e.seq < d.seq)).all fun e =>
    d.gPrefetch && match e.work with
      | .batch b => (e.shares.zip b.shares).all fun p => p.1.tile != tile || p.1.dead || (p.2.next == p.1.hi && p.2.rounds.all (·.phase == 2))
      | _ => true

/-- The first round of a batch on a tile: its hot rows (R247). -/
def beginShare (d : Desc) (i tile : Nat) (s : State) : State :=
  match d.batch? with
  | none => s
  | some b =>
    let rec' := boundRec s b
    let s := setGShare d.id i (fun g => { g with begun := true }) s
    if d.gNoHot ∨ byteAt rec' 18 = 0 then s else
    let same := ((mget s.eng.hot tile).map fun h => h.table == b.table && h.version == b.version).getD false
    let used := s.eng.descs.any fun e => e.id != d.id && match e.work with
      | .batch c => (e.shares.zip c.shares).any fun p => p.1.tile == tile && p.2.hot
      | _ => false
    if !same && used then s else
    let s := { s with eng.hot := if same then mmod s.eng.hot tile (fun h => { h with failed := [] })
                                 else mset s.eng.hot tile { table := b.table, version := b.version } }
    setGShare d.id i (fun g => { g with hot := true }) s

/-- Opens a share's rounds while a buffer is free (R243). -/
def openShare (id i : Nat) : Nat → State → State
  | 0, s => s
  | fuel + 1, s =>
    match findDesc s id with
    | none => s
    | some d => match d.batch?, d.shares[i]? with
      | some b, some sh =>
        let g := b.shares.getD i { next := 0 }
        if sh.dead ∨ d.posting ∨ movingNow s d ∨ b.trailer ∨ 2 ≤ tileRounds s sh.tile ∨ sh.hi ≤ g.next ∨ !(g.begun || mayBegin s d sh.tile) then s
        else
          let s := if g.begun then s else beginShare d i sh.tile s
          let n := min (max 1 (roundBags d (boundRec s b))) (sh.hi - g.next)
          openShare id i fuel (setGShare id i (fun g => { g with next := g.next + n, rounds := g.rounds ++ [{ lo := g.next, n }] }) s)
      | _, _ => s

/-- Opens what can be opened on every GATHER unit, in order of acceptance, and loads hot rows. -/
def openRounds (s : State) : State :=
  let us := ((s.eng.descs.filter (·.batch?.isSome)).map (·.unit)).eraseDups
  each us (fun u s =>
    each ((batchesOn s u).map (·.id)) (fun id s =>
      let n := ((findDesc s id).map (·.shares.length)).getD 0
      each (List.range n) (fun i s =>
        let s := openShare id i 3 s
        match findDesc s id with
        | none => s
        | some d =>
          let hot := ((d.batch?.bind fun b => b.shares[i]?).map (·.hot)).getD false
          if hot then loadHot d i ((d.shares[i]?).map (·.tile) |>.getD 0) s else s) s) s) s

/-- A bag ends with a status (R242, R251): counted once. -/
def failBag (d : Desc) (tile st : Nat) (bag : Bag) (s : State) : State :=
  if bag.status ≠ 0 then s else
  setDesc d.id (fun d => { d with fail := d.fail.or (some (tile, st)) }) (tileCount d.unit 0x168 0x90 s)

/-! ### Pooling (R252) -/

/-- Adds count × row to a bag's accumulators. -/
def poolBag (d : Desc) (rec : List Byte) (data : List Byte) (c : Nat) (g : Bag) : Bag :=
  if c = 0 then g else
  let out := (List.range (rowElems rec)).map fun i =>
    let (x, f) := decodeAcc (recFmt rec) data i
    let (y, f2) := if d.mode = 2 then ((c * x.1 % 2 ^ 64, 0), 0)
      else
        let (r, o) := f32of ((f32val x.1).mul (.fin false c 0))
        ((r, 0), if o then flOvf else 0)
    let (a, f3) := accFold d.mode 1 ((g.acc.getD [])[i]?) y
    (a, f ||| f2 ||| f3)
  { g with acc := some (out.map (·.1)), flags := g.flags ||| orFlags (out.map (·.2)) }

/-- A row has arrived for a round, or has failed: every bag that recorded it takes it. `hot`: from the hot-row area. -/
def poolRow (id i lo row : Nat) (hot : Bool) (res : Nat × List Byte) (s : State) : State :=
  match findDesc s id with
  | none => s
  | some d => match d.batch?, d.shares[i]? with
    | some b, some sh =>
      match roundAt b i lo with
      | none => s
      | some r =>
        let rec' := boundRec s b
        let hit := fun (g : Bag) => mget (if hot then g.hotCounts else g.counts) row
        let s := if res.1 = 0 then s else each (r.bags.filter fun p => (hit p.2).isSome) (fun p s => failBag d sh.tile res.1 p.2 s) s
        setRound id i lo (fun r => { r with
          out := if hot then r.out else r.out.filter (· != row)
          hotTodo := if hot then r.hotTodo.filter (· != row) else r.hotTodo
          bags := r.bags.map fun p => match hit p.2 with
            | none => p
            | some c => (p.1, if res.1 = 0 then poolBag d rec' res.2 c p.2
                              else { p.2 with status := if p.2.status = 0 then res.1 else p.2.status }) }) s
    | _, _ => s

/-! ### Delivery (R254, R255) -/

/-- The bag's valid count (R241, R244). -/
def bagV (g : Bag) : Nat := g.v + sum (g.counts.map (·.2)) + sum (g.hotCounts.map (·.2))

/-- The output row of a bag, and flags of the last rounding (R252, R254). -/
def bagRow (d : Desc) (rec : List Byte) (g : Bag) : List Byte × Nat :=
  let e := rowElems rec
  let n := dataLen d.outFmt e
  match g.acc with
  | some acc =>
    if g.status ≠ 0 ∨ bagV g = 0 then (zeros n, 0)
    else if !d.gMean then encodeAccs d.mode d.outFmt acc
    else if d.mode = 2 then
      let es := acc.map fun a => encodeInt d.outFmt (rneDiv (sgn 64 a.1) (bagV g))
      (packBits (fmtBits d.outFmt) (es.map (·.1)), orFlags (es.map (·.2)))
    else
      let vs := acc.map fun a => f32of ((accVal d.mode a).divNat (bagV g))
      let (bs, fl) := encodeFs d.outFmt (vs.map fun v => f32val v.1)
      (bs, fl ||| (if vs.any (·.2) then flOvf else 0))
  | none => (zeros n, 0)

/-- BFLAGS from the flags of Table 6-5 and EMPTY (Table 8-8). -/
def bagFlags (fl : Nat) (empty : Bool) : Nat :=
  b2n (bit fl 3) + 2 * b2n empty + 4 * b2n (bit fl 0) + 8 * b2n (bit fl 1) + 16 * b2n (bit fl 2)

/-- A bag's header and padded output row (Table 8-8). -/
def bagRecord (d : Desc) (rec : List Byte) (g : Bag) : List Byte × List Byte × Nat :=
  let (row, fl) := bagRow d rec g
  let fl := g.flags ||| fl
  (le 1 g.status ++ le 1 (bagFlags fl (bagV g == 0)) ++ zeros 2 ++ le 4 g.dropped ++ le 8 (bagV g), padMul 8 row, fl)

/-- GBAG packets for consecutive bags from `lo`: data, CONTRIB and ADDR. -/
def bagPackets (rs : List (Nat × List Byte × List Byte)) : List (Nat × Nat × List Byte) :=
  let size := 16 + ((rs.headD (0, [], [])).2.2).length
  if size ≤ 4096 then (chunksOf (4096 / size) (rs.length + 1) rs).map fun q => ((q.headD (0, [], [])).1, 0, (q.map fun r => r.2.1 ++ r.2.2).flatten)
  else (rs.map fun r => (List.range (ceilDiv r.2.2.length 4080)).map fun k => (r.1, k, r.2.1 ++ slice r.2.2 (4080 * k) 4080)).flatten

/-- Emits a round's bags in ascending order and frees its buffer (R246, R254). -/
def emitRound (id i lo : Nat) (s : State) : State :=
  match findDesc s id with
  | none => s
  | some d => match d.batch?, d.shares[i]? with
    | some b, some sh =>
      match roundAt b i lo with
      | none => s
      | some r =>
        let rec' := boundRec s b
        let bags := (List.range r.n).map fun k => (lo + k, mgetD r.bags (lo + k) {})
        let rs := bags.map fun g => (g.1, bagRecord d rec' g.2)
        let s := setGShare id i (fun g => { g with rounds := g.rounds.filter (·.lo != lo) }) s
        let s := setBatch id (fun b => { b with
          ok := b.ok + (bags.filter (·.2.status == 0)).length
          vsum := satAdd (2 ^ 64 - 1) b.vsum (sum (bags.map fun g => bagV g.2)) }) s
        let s := setDesc id (fun d => { d with flags := d.flags ||| orFlags (rs.map fun r => r.2.2.2) }) s
        let gen := (eunit s d.unit).gen
        each (bagPackets (rs.map fun r => (r.1, r.2.1, r.2.2.1))) (fun p s =>
          sendEng d (tileInp sh.tile) 5 (engPkt s d 0x56 d.outEp d.unit d.outFmt gen 2 p.2.1 p.1 p.2.2) .bags none [] none s) s
    | _, _ => s

/-- A closed round takes the hot rows that are loaded or have failed. -/
def poolHot (id i lo : Nat) (s : State) : State :=
  match findDesc s id with
  | none => s
  | some d => match d.batch?, d.shares[i]? with
    | some b, some sh =>
      match roundAt b i lo, mget s.eng.hot sh.tile with
      | some r, some h =>
        each r.hotTodo (fun row s =>
          match mget h.rows row, mget h.failed row with
          | some bs, _ => poolRow id i lo row true (0, bs) s
          | none, some st => poolRow id i lo row true (st, []) s
          | none, none => s) s
      | _, _ => s
    | _, _ => s

/-- A round goes on: closes when its bags are complete, requests rows, and is emitted when all are pooled (R246). -/
def stepRound (id i lo : Nat) (s : State) : State :=
  match (findDesc s id).bind (·.batch?) |>.bind (roundAt · i lo) with
  | none => s
  | some r =>
    let s := if r.phase = 0 ∧ (List.range r.n).all (fun k => (mgetD r.bags (lo + k) {}).complete) then
        setRound id i lo (fun r => { r with phase := 2, todo := heads r
                                            hotTodo := ((r.bags.map fun p => p.2.hotCounts.map (·.1)).flatten).eraseDups }) s
      else s
    match (findDesc s id).bind (·.batch?) |>.bind (roundAt · i lo) with
    | none => s
    | some r =>
      let s := if r.phase = 0 then s else requestRows id i lo (r.todo.length + 1) s
      let s := if r.phase = 2 then poolHot id i lo s else s
      match (findDesc s id).bind (·.batch?) |>.bind (roundAt · i lo) with
      | some r => if r.phase = 2 ∧ r.todo = [] ∧ r.out = [] ∧ r.hotTodo = [] then emitRound id i lo s else s
      | none => s

/-- Every open round of every batch goes on, buffers are taken by later rounds, and versions retire. -/
def gatherRun (s : State) : State :=
  let s := openRounds s
  let rs := (s.eng.descs.map fun d => match d.work with
    | .batch b => (((List.range b.shares.length).zip b.shares).map fun g => g.2.rounds.map fun r => (d.id, g.1, r.lo)).flatten
    | _ => []).flatten
  openRounds (each rs (fun r s => stepRound r.1 r.2.1 r.2.2 s) s)

/-! ### Trailer and completion (R255 to R257) -/

/-- The status that the trailer and the completion carry (R255). -/
def batchStatus (d : Desc) : Nat := (d.fail.map (·.2)).getD 0

/-- Trailer data (Table 8-9). -/
def trailerData (d : Desc) (b : Batch) (status : Nat) : List Byte :=
  le 1 status ++ le 1 d.flags ++ zeros 2 ++ le 4 b.version ++ le 8 b.vsum ++ le 8 b.dropped ++ le 8 b.rows

/-- Sends a control packet or trailer of a batch or run. -/
def sendTail (d : Desc) (op tc dst phase : Nat) (data : List Byte) (what : SentFor) (g : Gate) (s : State) : State :=
  sendEng d (tileInp ((d.shares.headD { tile := 0, lo := 0, hi := 0 }).tile)) tc
    (engPkt s d op dst d.unit d.outFmt (eunit s d.unit).gen phase 0 0 data) what none [] g s

def isBags : SentFor → Bool
  | .bags => true
  | _ => false

/-- Every bag has been delivered and answered: commit 1 and the trailer (R255, R257). -/
def batchStep (id : Nat) (s : State) : State :=
  match findDesc s id with
  | none => s
  | some d => match d.batch? with
    | none => s
    | some b =>
      let done := (d.shares.zip b.shares).all fun p => p.1.dead || (p.2.next == p.1.hi && p.2.rounds.isEmpty)
      if d.posting ∨ d.standby ∨ movingNow s d ∨ b.trailer ∨ !done ∨ outOf s id isBags then s else
      let (s, g) := commitWork id 1 s
      sendTail d 0x56 5 d.outEp 0xFFFF (trailerData d b (batchStatus d)) .trailer g (setBatch id (fun b => { b with trailer := true }) s)

/-- The completion of a batch (R255). -/
def batchEnd (id : Nat) (g : Gate) (s : State) : State :=
  match findDesc s id with
  | none => s
  | some d => match d.batch? with
    | none => s
    | some b => finishDesc id (batchStatus d) b.ok g s

/-- The engine goes on after any change: rounds, trailers, retired versions, freed program slots. A slot is free when no
active descriptor on its tile uses its image (R263). -/
def settleEng (s : State) : State :=
  let s := gatherRun s
  let s := each ((s.eng.descs.filter (·.batch?.isSome)).map (·.id)) batchStep s
  let used : Nat × List Byte → Bool := fun p =>
    s.eng.descs.any fun d => d.kind == 3 && (d.shares.any (·.tile == p.1 / 4)) && slice d.raw 64 32 ++ (d.raw.drop 128) == p.2
  settleQuiesce (retireVersions { s with eng.slots := s.eng.slots.filter used })

/-! ### GATHER_POST (R239, R259) -/

/-- OUT_FMT that a row format allows (R239). -/
def gatherOutOk (i o : Nat) : Bool := if fmtInt i then o == 0x0B || o == 0x0C else [1, 2, 3, 4, 5].contains o

/-- Reserved encodings of the gather body (Table 8-4). -/
def gatherBad (d : Desc) : Bool :=
  d.b 1 1 == 0 || decide (3 ≤ d.b 1 1) || decide (8 ≤ d.b 2 1) || d.b 3 1 != 0 || decide (2 ^ 18 ≤ d.b 4 4) || decide (2 ^ 18 ≤ d.b 8 4) ||
  d.b 13 1 != 0 || d.b 24 8 != 0

/-- Gives a new batch its table version and shares. -/
def batchDesc (d : Desc) (version : Nat) : Desc :=
  { d with work := .batch { table := d.gTable, version, shares := d.shares.map fun sh => { next := sh.lo } } }

def gatherPostBody (c : CmdRec) (s : State) : CmdRes × State :=
  let r := descRow s c.params
  if r.status ≠ 0 then (.done r.status [] r.load, rowCount r s) else
  let d := newDesc s c.params 1 (.batch { table := 0, version := 0 })
  match (if ownTable s d.gTable d.comp then (gtable s d.gTable).bind curVer else none) with
  | none => bad 0x12 s
  | some v =>
    if gatherBad d ∨ d.inFmt ≠ recFmt v.bytes ∨ !gatherOutOk d.inFmt d.outFmt ∨ 2 ^ 24 < d.count then bad 0x11 s else
    let (s, g) := acceptDesc (batchDesc d v.version) (le 4 v.version ++ zeros 4) { s with xlt.nextId := s.xlt.nextId + 1 }
    let s := settleEng s
    match g with
    | none => (okRes, s)
    | some g => (.held, hold g (.short c []) s)

/-! ### GINDEX (R240 to R245) -/

/-- An entry of a bag. -/
def takeEntry (hot : List Nat) (rows : Nat) (g : Bag) (row c : Nat) : Bag :=
  if rows ≤ row then { g with dropped := g.dropped + 1 } else
  let add := fun (m : SMap Nat) => mset m row (min 0xFFFFFFFF (mgetD m row 0 + c))
  let old := mgetD (if hot.contains row then g.hotCounts else g.counts) row 0
  let g := if 0xFFFFFFFF < old + c then { g with flags := g.flags ||| flCnt } else g
  if hot.contains row then { g with hotCounts := add g.hotCounts } else { g with counts := add g.counts }

/-- A GINDEX's bags: bag, entries. -/
def gindexBags (d : Desc) (p : Kmt) : List (Nat × List (Nat × Nat)) :=
  let b := engData p
  let nb := byteAt b 2
  let w := if d.gPairs then 8 else 4
  let at_ := 8 + (2 * nb + 7) / 8 * 8
  ((List.range nb).foldl (fun (acc : Nat × List (Nat × List (Nat × Nat))) k =>
    let n := fld b (8 + 2 * k) 2
    (acc.1 + n, acc.2 ++ [(p.addr + k, (List.range n).map fun j =>
      let o := at_ + w * (acc.1 + j)
      (fld b o 4, if d.gPairs then fld b (o + 4) 4 else 1))])) (0, [])).2

/-- Length rules of Table 8-5. -/
def gindexBad (d : Desc) (b : Batch) (i : Nat) (p : Kmt) : Bool :=
  let x := engData p
  let nb := byteAt x 2
  let c := subContrib p
  let lens := sum ((List.range nb).map fun k => fld x (8 + 2 * k) 2)
  nb == 0 || lens != fld x 0 2 || x.length != 8 + (2 * nb + 7) / 8 * 8 + (if d.gPairs then 8 else 4) * fld x 0 2 ||
  (c != 0 && nb != 1) || decide (d.count < p.addr + nb) ||
  (List.range nb).any fun k =>
    let g := p.addr + k
    !(b.cut.contains g) && match roundAt b i g with
      | some r => (mgetD r.bags g {}).complete
      | none => decide (g < (b.shares.getD i { next := 0 }).next)

/-- A bag takes chunk c of its entries; the last bag of a packet with CONT goes on. -/
def takeChunk (hot : List Nat) (rows c : Nat) (more : Bool) (es : List (Nat × Nat)) (g : Bag) : Bag :=
  if g.got.contains c then g else
  let g := es.foldl (fun g e => takeEntry hot rows g e.1 e.2) g
  let g := { g with got := g.got ++ [c], last := if more then g.last else some c, entries := g.entries + es.length }
  { g with complete := match g.last with
      | some k => (List.range (k + 1)).all g.got.contains
      | none => false }

/-- An index packet at its batch, after the rows of Table 6-8. -/
def batchIndex (lp tc : Nat) (p : Kmt) (d : Desc) (b : Batch) (i : Nat) (sh : ShareSt) (s : State) : State :=
  let key := (subContrib p, p.addr, subPhase p)
  let inp := tileInp sh.tile
  let g := b.shares.getD i { next := 0 }
  let nb := byteAt p.payload 18
  let rec' := boundRec s b
  let hot := if g.hot then recHot rec' else []
  let bags := (gindexBags d p).filter fun e => !b.cut.contains e.1
  let rounds := g.rounds.filter fun r => decide (p.addr < r.lo + r.n) && decide (r.lo < p.addr + nb)
  let cont := bit (byteAt p.payload 19) 0
  let bagAt : Nat → Bag := fun k => ((roundAt b i k).map fun (r : Round) => mgetD r.bags k {}).getD {}
  if b.folded.contains key then engReply lp tc p 0 0 [] inp (dupCount d s)
  else if g.next < p.addr + nb ∨ g.next ≤ p.addr then engReply lp tc p 0x02 12 [] inp s
  else if p.src ≠ d.srcEp then engReply lp tc p 0x13 0 [] inp (count 0x03000410 s)
  else if gindexBad d b i p then engReply lp tc p 0x11 0 [] inp s
  else if b.cut.contains p.addr ∧ subContrib p ≠ 0 then engReply lp tc p 0 0 [] inp s
  else if bags.any fun e => 65536 < (bagAt e.1).entries + e.2.length then
    let k := ((bags.find? fun e => 65536 < (bagAt e.1).entries + e.2.length).map (·.1)).getD p.addr
    let old := bagAt k
    let s := failBag d sh.tile 0x11 old s
    let s := setBatch d.id (fun b => { b with cut := b.cut ++ [k] }) s
    let s := each (rounds.filter fun r => decide (r.lo ≤ k) && decide (k < r.lo + r.n)) (fun r s => setRound d.id i r.lo (fun r => { r with
      bags := mset r.bags k { old with complete := true, status := if old.status = 0 then 0x11 else old.status } }) s) s
    settleEng (engReply lp tc p 0x11 0 [] inp s)
  else if movingNow s d then engReply lp tc p 0x02 12 [] inp s
  else if rounds.any (·.phase == 1) then engReply lp tc p 0x02 12 [] inp s
  else
    let put : Round → Round := fun r => { r with
      bags := bags.foldl (fun m e =>
        if e.1 < r.lo ∨ r.lo + r.n ≤ e.1 then m
        else mset m e.1 (takeChunk hot (recRows rec') (subContrib p) (cont && e.1 + 1 == p.addr + nb) e.2 (mgetD m e.1 {}))) r.bags }
    match rounds.find? fun r => decide (131072 < dedupUsed (put r)) with
    | some r =>
      let c := unitCtr d.unit 0x148 0x70
      let s := count c s
      let s := if bit (reg s 0x05800020) 1 then event d.comp 4 d.unit c (attn 4 s) else s
      let s := setRound d.id i r.lo (fun r => { r with phase := 1, todo := heads r }) s
      settleEng (engReply lp tc p 0x02 12 [] inp s)
    | none =>
      let es := (bags.map (·.2)).flatten
      let bad := (es.filter fun e => decide (recRows rec' ≤ e.1)).length
      let hits := (es.filter fun e => hot.contains e.1).length
      let s := countN (unitCtr d.unit 0x140 0x68) bad s
      let s := if conf s d.comp then s else countN (unitCtr d.unit 0x158 0x80) hits s
      let s := logInput sh.tile 1 d.comp (kmtBytes p) s
      let s := each rounds (fun r s => setRound d.id i r.lo put s) s
      let s := setBatch d.id (fun b => { b with folded := b.folded ++ [key], dropped := b.dropped + bad }) s
      settleEng (engReply lp tc p 0 0 [] inp s)

/-- A packet for a gather batch. -/
def gatherPacket (lp tc : Nat) (p : Kmt) (d : Desc) (s : State) : State :=
  match d.batch?, shareAt d p.addr with
  | some b, some (i, sh) => batchIndex lp tc p d b i sh s
  | _, _ => s

/-- GINDEX: rounds that can open do, then the packet is judged. -/
def gindex (lp tc : Nat) (p : Kmt) (s : State) : State :=
  if engTakes s lp then engPacket gatherPacket lp tc p (settleEng s) else s

/-- ROUND_FLUSH_DONE (R245): the table half is cleared and intake resumes. -/
def roundFlushDone (id tile : Nat) (s : State) : State :=
  if !running s then s else
  match findDesc s id with
  | none => s
  | some d => match d.batch? with
    | none => s
    | some b =>
      each ((List.range d.shares.length).zip (d.shares.zip b.shares)) (fun q s =>
        if q.2.1.tile ≠ tile then s else
        each (q.2.2.rounds.filter fun r => r.phase == 1 && r.todo.isEmpty && r.out.isEmpty) (fun r s =>
          setRound id q.1 r.lo (fun r => { r with phase := 0, bags := r.bags.map fun g =>
            (g.1, { g.2 with v := g.2.v + sum (g.2.counts.map (·.2)), counts := [] }) }) s) s) s

/-! ### Rows that arrive (R246, R250, R251) -/

/-- A GROWREQ that has all its rows, or a failing read, is answered (R250). -/
def stepServe (id : Nat) (s : State) : State :=
  match s.eng.serves.find? (·.id == id) with
  | none => s
  | some v =>
    if v.rows.any (·.isNone) then s else
    let got := v.rows.filterMap fun r => r
    let s := { s with eng.serves := s.eng.serves.filter (·.id != id) }
    let w := v.wait
    let s := if conf s w.pkt.comp then s else tileCount v.unit 0x170 0x98 s
    match got.find? (·.1 != 0) with
    | some (st, _) => engReply w.lp w.tc w.pkt st 0 [] (tileInp v.unit) s
    | none => engReply w.lp w.tc w.pkt 0 0 ((got.map (·.2)).flatten) (tileInp v.unit) s

/-- A hot row has been loaded or has failed. -/
def hotLoaded (tile table version row : Nat) (res : Nat × List Byte) (s : State) : State :=
  { s with eng.hot := mmod s.eng.hot tile fun h =>
      if h.table ≠ table ∨ h.version ≠ version then h
      else if res.1 = 0 then { h with rows := mset h.rows row res.2 } else { h with failed := mset h.failed row res.1 } }

/-- Item of an INPUT record of read data: row, whether it is for the hot-row area, status, and the row (log entry 61). -/
def rowItem (row : Nat) (hot : Bool) (res : Nat × List Byte) : List Byte := le 4 row ++ le 4 (b2n hot) ++ le 8 res.1 ++ res.2

/-- A row's read has come to a result. -/
def rowRead (id : Nat) (f : ReadFor) (res : Nat × List Byte) (s : State) : State :=
    let drop := fun s => { dropRead id s with eng.reads := mdel s.eng.reads id }
    match f with
    | .row desc share lo row =>
      let s := drop s
      match findDesc s desc with
      | none => s
      | some d =>
        if d.posting then s else
        let tile := ((d.shares[share]?).map (·.tile)).getD 0
        settleEng (poolRow desc share lo row false res (bytesIn tile d.comp res.2.length (logInput tile 2 d.comp (rowItem row false res) s)))
    | .hot tile table version row =>
      let s := logInput tile 2 (((gtable s table).map (·.comp)).getD 0) (rowItem row true res) s
      settleEng (hotLoaded tile table version row res (drop s))
    | .serve v k =>
      let s := drop s
      stepServe v { s with eng.serves := modIf (·.id == v) (fun x => { x with rows := x.rows.set k (some res) }) s.eng.serves }
    | _ => s

/-- ROW_READ_RESPONSE. -/
def rowReadResponse (id : Nat) (s : State) : State :=
  if !running s then s else
  match mget s.eng.reads id, readDone s id with
  | some f, some res => rowRead id f res s
  | _, _ => s

/-- GROWREQ (R250): the sender, composition, unit and job rows, then Table 8-11; then the rows are read. -/
def growreq (lp tc : Nat) (p : Kmt) (s : State) : State :=
  if !engTakes s lp ∨ p.rsp then s
  else if p.dst ≠ selfEp s then (if lp = 0x3FF then s else message lp tc p s)
  else
    let s := takeRx lp tc p s
    let u := subUnit p
    let inp := tileInp u
    let b := engData p
    let n := fld b 2 2
    let w := fld b 4 2
    let st := fld b 8 4
    let r := (senderRow s lp tc p).or <| (unitRow s p).or <|
      (Row.when ((eunit s u).role != 2) 0x11).or <|
      (Row.when (decide (w < 32) || decide (2048 < w) || w % 32 != 0 || n == 0 || decide (growMax w < n)) 0x11).or <|
      Row.when (st % 32 != 0 || decide (st < w) || decide (1048576 < st)) 0x11
    if r.status ≠ 0 then engReply lp tc p r.status r.load [] inp (rowCount r s)
    else
      let (v, s) := newId s
      let s := { s with eng.serves := s.eng.serves ++ [{ id := v, unit := u, wait := { lp, tc, pkt := p }, rows := List.replicate n none }] }
      each (List.range n) (fun k s =>
        let (id, s) := issueRead p.comp p.job (fld b 0 2 % 1024) ((fld b 16 8 + fld b (24 + 4 * k) 4 * st) % 2 ^ 46) w 5 (unitCrest s u) s
        { s with eng.reads := mset s.eng.reads id (.serve v k) }) s

/-- Rows of a GROWREQ have come, or have failed. -/
def rowsCame (d : Desc) (share : Nat) (lo : Option Nat) (rows : List Nat) (res : Nat → Nat × List Byte) (s : State) : State :=
  let tile := ((d.shares[share]?).map (·.tile)).getD 0
  each ((List.range rows.length).zip rows) (fun k s =>
    let v := res k.1
    let s := bytesIn tile d.comp v.2.length s
    match lo, d.batch? with
    | some lo, _ => poolRow d.id share lo k.2 false v s
    | none, some b => hotLoaded tile b.table b.version k.2 v s
    | none, none => s) s

/-- GROWREQ_RESPONSE (R251). -/
def growAnswered (p : Kmt) (e : ESent) (s : State) : State :=
  match e.what, findDesc s e.desc with
  | .rows share lo k rows alone _, some d =>
    let s := { s with eng.sent := s.eng.sent.filter (·.tag != e.tag) }
    let rec' := ((d.batch?).map (boundRec s)).getD []
    if p.status = 0 then settleEng (rowsCame d share lo rows (fun j => (0, padTo (recWidth rec') (slice (engData p) (j * recWidth rec') (recWidth rec')))) s)
    else if alone then settleEng (rowsCame d share lo rows (fun _ => (p.status, [])) s)
    else
      let tile := ((d.shares[share]?).map (·.tile)).getD 0
      each rows (fun r s => sendGrow d rec' tile share lo k [r] true s) s
  | _, _ => s

/-- ROW_TMO_EXPIRY (R251): the repeat goes to the shard's Partner, or to its owner again. -/
def rowTmoExpiry (tag : Nat) (s : State) : State :=
  if !running s then s else
  match s.eng.sent.find? (·.tag == tag) with
  | none => s
  | some e =>
    match e.what, findDesc s e.desc with
    | .rows share lo k rows alone again, some d =>
      let s := atLeast (e.at_ + bits (reg s 0x05800020) 31 24 * 1000) s
      let rec' := ((d.batch?).map (boundRec s)).getD []
      if again then
        settleEng (rowsCame d share lo rows (fun _ => (0x21, [])) { s with eng.sent := s.eng.sent.filter (·.tag != tag) })
      else
        let h := shardAt rec' k
        let pe := fld h 8 4 % 2 ^ 18
        let s := tileCount d.unit 0x160 0x88 s
        let pkt := if pe = 0x3FFFF then { e.pkt with rtx := true }
          else { e.pkt with rtx := true, dst := pe, payload := le 1 (byteAt h 13 % 128) ++ slice e.pkt.payload 1 1 ++ slice h 16 2 ++ e.pkt.payload.drop 4 }
        let s := { s with eng.sent := modIf (·.tag == tag) (fun x => { x with pkt, at_ := s.clock.clk, what := .rows share lo k rows alone true }) s.eng.sent }
        launch e.inp e.tc pkt none none s
    | _, _ => s

/-- GBAG_RESPONSE (R255). -/
def bagAnswered (p : Kmt) (e : ESent) (s : State) : State :=
  if p.status ≠ 0 then s else
  let (_, s) := takeAnswer e p.src s
  match e.what with
  | .trailer =>
    let (s, g) := commitWork e.desc 2 s
    settleEng (batchEnd e.desc g s)
  | _ => settleEng s

/-- A batch's deadline has passed (R202, R256): the trailer says so, and nothing further is delivered. -/
def batchExpire (d : Desc) (b : Batch) (s : State) : State :=
  let t := missTile d fun i => !((b.shares.getD i { next := 0 }).rounds.isEmpty) ||
    decide ((b.shares.getD i { next := 0 }).next < (d.shares.getD i { tile := 0, lo := 0, hi := 0 }).hi)
  let s := sendTail d 0x56 5 d.outEp 0xFFFF (trailerData d b 0x40) .trailer none s
  settleEng (finishDesc d.id 0x40 b.ok none (setDesc d.id (fun d => { d with fail := some (t, 0x40) }) s))

def execTablePublish (comp q : Nat) (s : State) : Host.Outcome State Fault Refusal :=
  let s := runCmd comp q 0x42 anyAct tablePublishBody s
  let s := settleRecords (2 * s.eng.reads.length + 2) s
  .next (settleQueues (intake s) s)
def execGatherPost (comp q : Nat) (s : State) : Host.Outcome State Fault Refusal :=
  .next (runCmd comp q 0x31 anyAct gatherPostBody s)
def execGindex (lp tc : Nat) (p : Kmt) (s : State) : Host.Outcome State Fault Refusal :=
  .next (if p.opcode = 0x54 then gindex lp tc p s else s)
def execRoundFlushDone (desc tile : Nat) (s : State) : Host.Outcome State Fault Refusal := .next (roundFlushDone desc tile s)
def execRowReadResponse (id : Nat) (s : State) : Host.Outcome State Fault Refusal := .next (rowReadResponse id s)
def execGrowreq (lp tc : Nat) (p : Kmt) (s : State) : Host.Outcome State Fault Refusal :=
  .next (if p.opcode = 0x55 then growreq lp tc p s else s)
def execGrowreqResponse (lp tc : Nat) (p : Kmt) (s : State) : Host.Outcome State Fault Refusal :=
  .next (if p.opcode = 0x55 then engAnswer (growAnswered p) lp tc p s else s)
def execRowTmoExpiry (id : Nat) (s : State) : Host.Outcome State Fault Refusal := .next (rowTmoExpiry id s)
def execGbagResponse (lp tc : Nat) (p : Kmt) (s : State) : Host.Outcome State Fault Refusal :=
  .next (if p.opcode = 0x56 then engAnswer (bagAnswered p) lp tc p s else s)

end Sys2Proof.Machine
end

