-- ==== Sys2Proof/Machine/Filter.lean ====
section
/-! DEFINITION. Filter programs (chapter 9): instructions, load-time checks, evaluation, outputs, top-k lists, trailers. -/

namespace Sys2Proof.Machine

/-! ### Instructions (Tables 9-2 and 9-3) -/

/-- An instruction word. -/
structure FInsn where
  op : Nat
  d : Nat
  a : Nat
  b : Nat
  i : Bool
  w : Nat
  aux : Nat
  imm : Nat
  deriving DecidableEq, Repr

def finsn (v : Nat) : FInsn :=
  { op := bits v 63 56, d := bits v 55 52, a := bits v 51 48, b := bits v 47 44, i := bit v 43, w := bits v 42 40, aux := bits v 39 32
    imm := bits v 31 0 }

/-- The program of a descriptor. -/
def Desc.prog (d : Desc) : List FInsn := (List.range d.nInsn).map fun k => finsn (d.b (64 + 8 * k) 8)
def Desc.consts (d : Desc) : List Nat := (List.range d.nConst).map fun k => d.b (64 + 8 * d.nInsn + 8 * k) 8

/-- Opcodes that are no reserved ones. -/
def fopKnown (op : Nat) : Bool :=
  (decide (1 ≤ op) && decide (op ≤ 6)) || (decide (0x10 ≤ op) && decide (op ≤ 0x1D)) || op == 0x1F ||
  (decide (0x20 ≤ op) && decide (op ≤ 0x29)) || op == 0x30 || op == 0x31 || (decide (0x40 ≤ op) && decide (op ≤ 0x42)) ||
  (decide (0x50 ≤ op) && decide (op ≤ 0x53))

/-- Does the opcode have an operand b? -/
def fopB (op : Nat) : Bool := (decide (0x10 ≤ op) && decide (op ≤ 0x1D)) || (decide (0x20 ≤ op) && decide (op ≤ 0x24)) || op == 0x27
def fopD (op : Nat) : Bool := decide (op < 0x40)
def fopA (op : Nat) : Bool := !([0x04, 0x05, 0x42, 0x52, 0x53].contains op)
def fopW (op : Nat) : Bool := op == 0x01 || op == 0x02 || op == 0x50
def fopImm (op : Nat) : Bool := (decide (1 ≤ op) && decide (op ≤ 5)) || (decide (0x40 ≤ op) && decide (op ≤ 0x42)) || op == 0x50

/-- Reserved W or AUX encoding, or an unused field that is not zero (R267, check 0x06). -/
def finsnBad (x : FInsn) : Bool :=
  (!fopD x.op && x.d != 0) || (!fopA x.op && x.a != 0) || (if fopW x.op then decide (4 ≤ x.w) else x.w != 0) ||
  (if fopB x.op then (if x.i then x.b != 0 else x.imm != 0) else x.i || x.b != 0 || (!fopImm x.op && x.imm != 0)) ||
  (if x.op = 0x03 then x.aux == 0 || decide (5 < x.aux) else if x.op = 0x1D then decide (9 < x.aux)
   else if x.op = 0x27 then decide (5 < x.aux) else x.aux != 0)

/-- First instruction for which a check fails. -/
def firstBad (f : Nat → FInsn → Bool) (p : List FInsn) : Option Nat :=
  (((List.range p.length).zip p).find? fun x => f x.1 x.2).map (·.1)

/-- The program checks of Table 9-4: check code and instruction index of the first failure. -/
def progCheck (d : Desc) : Option (Nat × Nat) :=
  let p := d.prog
  let per := fun (code : Nat) (f : Nat → FInsn → Bool) => (firstBad f p).map fun k => (code, k)
  if d.inFmt ≠ 0x0B ∨ d.outFmt ≠ 0x0B ∨ d.prec then some (1, 0)
  else if d.b 0 1 ≠ 1 ∨ d.fMode = 0 ∨ 3 < d.fMode ∨ 4 ≤ d.b 10 1 ∨ d.b 11 1 ≠ 0 ∨ d.b 16 16 ≠ 0 ∨ 2 ^ 18 ≤ d.b 32 4 ∨ 2 ^ 18 ≤ d.b 36 4 ∨
    d.b 49 1 ≠ 0 ∨ d.b 52 12 ≠ 0 then some (2, 0)
  else if d.nInsn = 0 ∨ 64 < d.nInsn ∨ 32 < d.nConst ∨ d.h 12 2 ≠ 64 + 8 * (d.nInsn + d.nConst) then some (3, 0)
  else if (d.recLen ≠ 0 ∧ (d.recLen < 8 ∨ 512 < d.recLen ∨ d.recLen % 8 ≠ 0)) ∨ 512 < d.outLen ∨ d.outLen % 8 ≠ 0 ∨
    (d.fMode = 2 ∧ d.outLen ≠ 0) ∨ (if d.fMode = 3 then d.topK = 0 ∨ 1024 < d.topK else d.topK ≠ 0 ∨ d.b 10 1 ≠ 0) then some (4, 0)
  else
    (per 5 fun _ x => !fopKnown x.op).or <| (per 6 fun _ x => finsnBad x).or <|
    (per 7 fun k x => (x.op == 0x40 || x.op == 0x41 || x.op == 0x42) && (decide (x.imm ≤ k) || decide (d.nInsn < x.imm))).or <|
    (per 8 fun _ x => (x.op == 0x04 && decide (d.nConst ≤ x.imm)) || (x.op == 0x31 && d.nConst == 0)).or <|
    (per 9 fun _ x => x.op == 0x50 && decide (d.outLen < x.imm + 2 ^ x.w)).or <|
    per 10 fun _ x => x.op == 0x51 && d.fMode != 3

/-- What a record's evaluation holds: X0 to X15, output record, key, and how the record ended. -/
structure FEval where
  x : List Nat
  out : List Byte
  key : Nat := 0
  done : Option Bool := none
  deriving DecidableEq, Repr

/-- `n` bytes of a record at an offset modulo 2^64; bytes past its end read zero (R265). -/
def recAt (r : List Byte) (off n : Nat) : Nat :=
  leVal ((List.range n).map fun k => r.getD ((off + k) % 2 ^ 64) 0)

/-- Sign extension of an `n`-bit value to 64 bits. -/
def sext (n v : Nat) : Nat := unsgn 64 (sgn n (v % 2 ^ n))

/-- An FP32 result; a NaN is 0x7FC0_0000 (R268). -/
def fres (v : FV) : Nat := (f32of v).1

def fLt (a b : FV) : Bool := !a.isNan && !b.isNan && FV.lt a b

/-- Integer comparison of CMP. -/
def cmpI (c a b : Nat) : Bool :=
  let x := sgn 64 a
  let y := sgn 64 b
  match c with
  | 0 => a == b
  | 1 => a != b
  | 2 => decide (x < y)
  | 3 => decide (x ≤ y)
  | 4 => decide (y < x)
  | 5 => decide (y ≤ x)
  | 6 => decide (a < b)
  | 7 => decide (a ≤ b)
  | 8 => decide (b < a)
  | _ => decide (b ≤ a)

/-- FCMP: with a NaN only NE holds (R268). -/
def cmpF (c : Nat) (a b : FV) : Bool :=
  if a.isNan || b.isNan then c == 1 else
  match c with
  | 0 => !fLt a b && !fLt b a
  | 1 => fLt a b || fLt b a
  | 2 => fLt a b
  | 3 => !fLt b a
  | 4 => fLt b a
  | _ => !fLt a b

/-- FTOI (R268). -/
def ftoi (v : FV) : Nat :=
  match v with
  | .nan => 0
  | .inf neg => if neg then 2 ^ 63 else 2 ^ 63 - 1
  | .fin neg m e =>
    let n : Nat := if e < 0 then m >>> (-e).toNat else m <<< (e.toNat)
    if neg then unsgn 64 (max (-(2 ^ 63 : Int)) (-(n : Int))) else min n (2 ^ 63 - 1)

def popc (a : Nat) : Nat := sum ((List.range 64).map fun k => b2n (bit a k))

/-- The result that an instruction writes to D. -/
def fresult (d : Desc) (r : List Byte) (x : FInsn) (a b : Nat) : Nat :=
  let off := (a + x.imm) % 2 ^ 64
  let fa := f32val (a % 2 ^ 32)
  let fb := f32val (b % 2 ^ 32)
  let cs := d.consts
  match x.op with
  | 0x01 => recAt r off (2 ^ x.w)
  | 0x02 => sext (8 * 2 ^ x.w) (recAt r off (2 ^ x.w))
  | 0x03 => fres (decodeElem (fmtOf x.aux) (recAt r off (fmtBits x.aux / 8)))
  | 0x04 => cs.getD x.imm 0
  | 0x05 => sext 32 x.imm
  | 0x06 => a
  | 0x10 => (a + b) % 2 ^ 64
  | 0x11 => (a + 2 ^ 64 - b) % 2 ^ 64
  | 0x12 => a * b % 2 ^ 64
  | 0x13 => a &&& b
  | 0x14 => a ||| b
  | 0x15 => a ^^^ b
  | 0x16 => (a <<< (b % 64)) % 2 ^ 64
  | 0x17 => a >>> (b % 64)
  | 0x18 => unsgn 64 (sgn 64 a / (2 ^ (b % 64) : Int))
  | 0x19 => if sgn 64 b < sgn 64 a then b else a
  | 0x1A => if sgn 64 a < sgn 64 b then b else a
  | 0x1B => min a b
  | 0x1C => max a b
  | 0x1D => b2n (cmpI x.aux a b)
  | 0x1F => popc a
  | 0x20 => fres (fa.add fb)
  | 0x21 => fres (fa.add fb.neg)
  | 0x22 => fres (fa.mul fb)
  | 0x23 => if fa.isNan || fb.isNan then 0x7FC00000 else if FV.lt fb fa then b % 2 ^ 32 else a % 2 ^ 32
  | 0x24 => if fa.isNan || fb.isNan then 0x7FC00000 else if FV.lt fa fb then b % 2 ^ 32 else a % 2 ^ 32
  | 0x25 => if fa.isNan then 0x7FC00000 else a % 2 ^ 31
  | 0x26 => if fa.isNan then 0x7FC00000 else (a % 2 ^ 32) ^^^ 2 ^ 31
  | 0x27 => b2n (cmpF x.aux fa fb)
  | 0x28 => fres (.fin (decide (sgn 64 a < 0)) (sgn 64 a).natAbs 0)
  | 0x29 => ftoi fa
  | 0x30 => crc32c (le 8 a)
  | 0x31 => if 64 * d.nConst ≤ a then 0 else b2n (bit (cs.getD (a / 64) 0) (a % 64))
  | _ => 0

/-- One instruction: the state after it and the index that runs next. -/
def fstep (d : Desc) (r : List Byte) (k : Nat) (x : FInsn) (e : FEval) : FEval × Nat :=
  let a := e.x.getD x.a 0
  let b := if x.i then (if 0x20 ≤ x.op ∧ x.op ≤ 0x27 then x.imm else sext 32 x.imm) else e.x.getD x.b 0
  match x.op with
  | 0x40 => (e, if a = 0 then x.imm else k + 1)
  | 0x41 => (e, if a ≠ 0 then x.imm else k + 1)
  | 0x42 => (e, x.imm)
  | 0x50 => ({ e with out := (e.out.take x.imm ++ le (2 ^ x.w) a ++ e.out.drop (x.imm + 2 ^ x.w)).take d.outLen }, k + 1)
  | 0x51 => ({ e with key := a }, k + 1)
  | 0x52 => ({ e with done := some true }, k + 1)
  | 0x53 => ({ e with done := some false }, k + 1)
  | _ => ({ e with x := e.x.set x.d (fresult d r x a b) }, k + 1)

/-- Runs a program from its first instruction; `next` is the index that runs next, which lies ahead (R269). -/
def frun (d : Desc) (r : List Byte) : Nat → Nat → List FInsn → FEval → FEval
  | _, _, [], e => e
  | k, next, x :: xs, e =>
    if e.done.isSome then e
    else if k < next then frun d r (k + 1) next xs e
    else
      let (e, n) := fstep d r k x e
      frun d r (k + 1) n xs e

/-- Evaluates a record (R265, R269): accepted, key and output record. -/
def evalRecord (d : Desc) (index : Nat) (r : List Byte) : Bool × Nat × List Byte :=
  let e := frun d r 0 0 d.prog { x := index :: r.length :: List.replicate 14 0, out := zeros d.outLen }
  (e.done == some true, e.key, e.out)

/-! ### Runs -/

def Desc.run? (d : Desc) : Option Run :=
  match d.work with
  | .run r => some r
  | _ => none

def setRun (id : Nat) (f : Run → Run) (s : State) : State :=
  setDesc id (fun d => match d.work with
    | .run r => { d with work := .run (f r) }
    | _ => d) s

def setFShare (id i : Nat) (f : FShare → FShare) (s : State) : State :=
  setRun id (fun r => { r with shares := (List.range r.shares.length).zip r.shares |>.map fun p => if p.1 = i then f p.2 else p.2 }) s

/-- The program image: bytes 0 to 31 of the body header, instructions and constants. -/
def Desc.image (d : Desc) : List Byte := slice d.raw 64 32 ++ d.raw.drop 128

/-- The slot of a tile that holds an image, or a free one (R263). -/
def findSlot (s : State) (tile : Nat) (img : List Byte) : Option Nat :=
  let ks := (List.range 4).map (4 * tile + ·)
  (ks.find? fun k => mget s.eng.slots k == some img).or (ks.find? fun k => (mget s.eng.slots k).isNone)

/-- Has the run's unit a program slot on every tile? -/
def slotsFree (s : State) (d : Desc) : Bool := d.shares.all fun sh => (findSlot s sh.tile d.image).isSome

/-- The image takes a slot on every tile. -/
def takeSlots (d : Desc) (s : State) : State :=
  each d.shares (fun sh s => match findSlot s sh.tile d.image with
    | some k => { s with eng.slots := mset s.eng.slots k d.image }
    | none => s) s

/-- A new run. -/
def runDesc (d : Desc) : Desc := { d with work := .run { shares := d.shares.map fun _ => {} } }

/-- FILTER_POST (R262, R263, R270, R280). -/
def filterPostBody (c : CmdRec) (s : State) : CmdRes × State :=
  let r := descRow s c.params
  if r.status ≠ 0 then (.done r.status [] r.load, rowCount r s) else
  let s := settleEng s
  let d := runDesc (newDesc s c.params 1 (.run {}))
  match progCheck d with
  | some (code, k) =>
    let s := count 0x05800498 s
    bad 0x11 (if conf s d.comp then s else { s with eng.lastErr := code * 2 ^ 24 + k % 256 * 2 ^ 16 + d.comp })
  | none =>
    if !slotsFree s d then retryRes 12 (tileCount d.unit 0x190 0xB0 s) else
    let (s, g) := acceptDesc d [] (takeSlots d { s with xlt.nextId := s.xlt.nextId + 1 })
    match g with
    | none => (okRes, s)
    | some g => (.held, hold g (.short c []) s)

/-! ### Records and the evaluation window (R264, R271, R272) -/

/-- The records of an FRECORD's data, or none when its lengths disagree. -/
def cutRecords (d : Desc) : Nat → List Byte → Option (List (List Byte))
  | 0, b => if b = [] then some [] else none
  | n + 1, b =>
    let pre := if d.recLen = 0 then 8 else 0
    let len := if d.recLen = 0 then fld b 0 2 % 1024 else d.recLen
    let size := pre + (len + 7) / 8 * 8
    if len = 0 ∨ 512 < len ∨ b.length < size then none
    else (cutRecords d n (b.drop size)).map (slice b pre len :: ·)

/-- Has a record been evaluated? -/
def seenRec (f : FShare) (k : Nat) : Bool := f.seen.any fun p => decide (p.1 ≤ k) && decide (k < p.2)

/-- Records [a, b) have been evaluated: kept as ranges that do not touch. -/
def addSeen (f : FShare) (a b : Nat) : FShare :=
  let (near, far) := f.seen.partition fun p => decide (p.1 ≤ b) && decide (a ≤ p.2)
  { f with seen := far ++ [(near.foldl (fun m p => min m p.1) a, near.foldl (fun m p => max m p.2) b)] }

/-- Blocks of a share, and the records of one of them (R271). -/
def nBlocks (sh : ShareSt) : Nat := ceilDiv (sh.hi - sh.lo) 32768
def blockLo (sh : ShareSt) (k : Nat) : Nat := sh.lo + 32768 * k
def blockHi (sh : ShareSt) (k : Nat) : Nat := min sh.hi (blockLo sh (k + 1))
def blockSeen (sh : ShareSt) (f : FShare) (k : Nat) : Bool :=
  f.seen.any fun p => decide (p.1 ≤ blockLo sh k) && decide (blockHi sh k ≤ p.2)
def shareSeen (sh : ShareSt) (f : FShare) : Bool :=
  decide (sh.hi ≤ sh.lo) || f.seen.any fun p => decide (p.1 ≤ sh.lo) && decide (sh.hi ≤ p.2)

/-- The window: the lowest 32 blocks that are not retired. -/
def evalWindow (sh : ShareSt) (f : FShare) : List Nat := ((List.range (nBlocks sh)).filter (!f.retired.contains ·)).take 32

def isOutput (share : Nat) (k : Option Nat) : SentFor → Bool
  | .output i bs _ => i == share && ((k.map bs.contains).getD true)
  | _ => false

/-! ### Outputs (R273 to R275) -/

/-- Bytes of an output entry: header, the key of a top-k entry, data. -/
def outEntry (top : Bool) (e : Nat × Nat × List Byte) : List Byte :=
  le 6 e.1 ++ le 2 e.2.2.length ++ (if top then le 8 e.2.1 else []) ++ padMul 8 e.2.2

/-- Whole entries packed into packets of at most 4,096 bytes. -/
def packEntries (es : List (List Byte × Nat)) : List (List (List Byte × Nat)) :=
  let r := es.foldl (fun (acc : List (List (List Byte × Nat)) × List (List Byte × Nat) × Nat) e =>
    if 4096 < acc.2.2 + e.1.length then (acc.1 ++ [acc.2.1], [e], e.1.length) else (acc.1, acc.2.1 ++ [e], acc.2.2 + e.1.length)) ([], [], 0)
  if r.2.1 = [] then r.1 else r.1 ++ [r.2.1]

/-- Sends an FOUTPUT to the destination. -/
def sendOutput (d : Desc) (tile tc phase contrib addr : Nat) (data : List Byte) (what : SentFor) (s : State) : State :=
  sendEng d (tileInp tile) tc (engPkt s d 0x59 d.outEp d.unit d.outFmt (eunit s d.unit).gen phase contrib addr data) what none [] none s

/-- Does entry a rank before entry b (R275)? -/
def ranksBefore (d : Desc) (a b : Nat × Nat × List Byte) : Bool :=
  let lt := fun x y => if d.keyFp then FV.lt (f32val (x % 2 ^ 32)) (f32val (y % 2 ^ 32)) else decide (sgn 64 x < sgn 64 y)
  let first := if d.keyMin then lt a.2.1 b.2.1 else lt b.2.1 a.2.1
  let last := if d.keyMin then lt b.2.1 a.2.1 else lt a.2.1 b.2.1
  first || (!last && decide (a.1 < b.1))

/-- Puts an entry into a list in rank order and keeps the best TOPK_K. -/
def rankIn (d : Desc) (l : List (Nat × Nat × List Byte)) (e : Nat × Nat × List Byte) : List (Nat × Nat × List Byte) :=
  (l.filter (ranksBefore d · e) ++ [e] ++ l.filter (!ranksBefore d · e)).take d.topK

/-- List packets of a share: CONTRIB and entries. -/
def listPackets (i : Nat) (f : FShare) : List (Nat × List Byte) :=
  let ps := packEntries (f.best.map fun e => (outEntry true e, 0))
  ((List.range ps.length).zip ps).map fun p => (256 * i + p.1, (p.2.map (·.1)).flatten)

/-- The share whose tile merges: the one that holds record 0. -/
def mergeShare (d : Desc) : Nat := ((shareAt d 0).map (·.1)).getD 0

/-- PRED blocks whose records have all been evaluated are sent (R274). -/
def sendBlocks (id : Nat) (d : Desc) (tc i : Nat) (sh : ShareSt) (s : State) : State :=
  match ((findDesc s id).bind (·.run?)).bind fun r => r.shares[i]? with
  | none => s
  | some f =>
    each ((List.range (nBlocks sh)).filter fun k => blockSeen sh f k && !f.sent.contains k) (fun k s =>
      let a := blockLo sh k
      let n := blockHi sh k - a
      let bits := (f.accepted.filter fun x => decide (a ≤ x) && decide (x < a + n)).foldl (fun m x => m ||| 2 ^ (x - a)) 0
      let s := setFShare id i (fun f => { f with sent := f.sent ++ [k] }) s
      sendOutput d sh.tile tc 2 0 a (le (ceilDiv n 64 * 8) bits) (.output i [k] 1) s) s

def isFinal : SentFor → Bool
  | .final _ => true
  | _ => false

/-- Trailer data (Table 9-5). -/
def runTrailer (d : Desc) (r : Run) (status : Nat) : List Byte :=
  le 1 status ++ le 1 d.flags ++ zeros 2 ++ le 4 d.progTag ++ le 8 r.evaluated ++ le 8 r.accepts ++ le 8 r.entries

/-- Records whose outputs have been emitted (R276; R202). -/
def runDone (d : Desc) (r : Run) : Nat :=
  if d.fMode = 3 then (if r.final ∧ (r.trailer ∨ r.entries = r.merged.length) then d.count else 0)
  else if d.fMode = 2 then sum ((d.shares.zip r.shares).map fun p => sum (p.2.sent.map fun k => blockHi p.1 k - blockLo p.1 k))
  else r.evaluated

/-- A run goes on: PRED blocks, retirement, lists, the final list, commit 1 and the trailer (R271, R274 to R276). -/
def runGo (id : Nat) (s : State) : State :=
  match findDesc s id with
  | none => s
  | some d => match d.run? with
    | none => s
    | some r =>
      if d.posting ∨ d.standby ∨ movingNow s d ∨ r.trailer then s else
      let tc := r.tc.getD 4
      let shs := (List.range d.shares.length).zip d.shares
      let s := if d.fMode = 2 then each shs (fun p s => if p.2.dead then s else sendBlocks id d tc p.1 p.2 s) s else s
      let s := each shs (fun p s =>
        let out := fun k => outOf s id (isOutput p.1 (some k))
        setFShare id p.1 (fun f => { f with retired := f.retired ++ ((List.range (nBlocks p.2)).filter fun k =>
          !f.retired.contains k && blockSeen p.2 f k && !out k && (d.fMode != 2 || f.sent.contains k)) }) s) s
      match (findDesc s id).bind (·.run?) with
      | none => s
      | some r =>
        let ended := (d.shares.zip r.shares).all fun p => p.1.dead || shareSeen p.1 p.2
        if !ended then s else
        let s := if d.fMode = 3 then
            each (shs.filter fun p => p.1 != mergeShare d && !p.2.dead && !((r.shares.getD p.1 {}).listed)) (fun p s =>
              let s := setFShare id p.1 (fun f => { f with listed := true }) s
              each (listPackets p.1 (r.shares.getD p.1 {})) (fun q s =>
                sendEng d (tileInp p.2.tile) tc (engPkt s d 0x52 (selfEp s) d.unit d.inFmt (eunit s d.unit).gen 3 q.1 0 q.2) (.list p.1) none [] none s) s) s
          else s
        let want := ((shs.filter fun p => p.1 != mergeShare d && !p.2.dead).map fun p =>
          (listPackets p.1 (r.shares.getD p.1 {})).map (·.1)).flatten
        if d.fMode = 3 ∧ !(want.all r.got.contains) then s else
        let s := if d.fMode = 3 ∧ !r.final then
            let all := ((r.shares.getD (mergeShare d) {}).best).foldl (rankIn d) r.merged
            let ps := packEntries (all.map fun e => (outEntry true e, 0))
            let s := setRun id (fun r => { r with final := true, merged := all }) s
            let tile := ((d.shares[mergeShare d]?).map (·.tile)).getD 0
            (ps.foldl (fun (acc : Nat × State) q =>
              (acc.1 + q.length, sendOutput d tile tc 2 0 acc.1 ((q.map (·.1)).flatten) (.final q.length) acc.2)) (0, s)).2
          else s
        if outOf s id (fun w => isFinal w || (match w with
            | .output _ _ _ => true
            | _ => false)) then s else
        match (findDesc s id).bind (·.run?) with
        | none => s
        | some r =>
          let (s, g) := commitWork id 1 s
          sendTail d 0x59 tc d.outEp 0xFFFF (runTrailer d r (batchStatus d)) .trailer g (setRun id (fun r => { r with trailer := true }) s)

/-- A run goes on, and the records whose outputs have been emitted are counted. -/
def runStep (id : Nat) (s : State) : State :=
  setDesc id (fun d => { d with done := (d.run?.map (runDone d)).getD d.done }) (runGo id s)

/-! ### FRECORD (R264, R271, R272, R280) -/

/-- Evaluates the new records of a packet and keeps or emits their outputs. -/
def evalPacket (p : Kmt) (d : Desc) (i : Nat) (sh : ShareSt) (f : FShare) (recs : List (List Byte)) (tc : Nat) (s : State) : State :=
  let new := ((List.range recs.length).zip recs).filterMap fun q => if seenRec f (p.addr + q.1) then none else some (p.addr + q.1, q.2)
  let res := new.map fun q => (q.1, q.2, evalRecord d q.1 q.2)
  let acc := res.filter (·.2.2.1)
  let entry := fun (q : Nat × List Byte × Bool × Nat × List Byte) => (q.1, q.2.2.2.1, if d.outLen = 0 then q.2.1 else q.2.2.2.2)
  let nan := fun (q : Nat × List Byte × Bool × Nat × List Byte) => d.keyFp && (f32val (q.2.2.2.1 % 2 ^ 32)).isNan
  let s := if conf s d.comp then s
    else countN (unitCtr d.unit 0x188 0xA8) acc.length (countN (unitCtr d.unit 0x180 0xA0) new.length s)
  let s := setRun d.id (fun r => { r with evaluated := r.evaluated + new.length, accepts := r.accepts + acc.length, tc := some tc }) s
  let s := if d.fMode = 3 ∧ acc.any nan then setDesc d.id (fun d => { d with flags := d.flags ||| flNan }) s else s
  let s := setFShare d.id i (fun f =>
    let f := addSeen f p.addr (p.addr + recs.length)
    { f with
      accepted := if d.fMode = 2 then f.accepted ++ acc.map (·.1) else f.accepted
      best := if d.fMode = 3 then ((acc.filter (!nan ·)).map entry).foldl (rankIn d) f.best else f.best }) s
  if d.fMode ≠ 1 then s else
  let ps := packEntries (acc.map fun q => (outEntry false (entry q), (q.1 - sh.lo) / 32768))
  each ((List.range ps.length).zip ps) (fun q s =>
    sendOutput d sh.tile tc 2 q.1 p.addr ((q.2.map (·.1)).flatten) (.output i ((q.2.map (·.2)).eraseDups) q.2.length) s) s

/-- A record packet at its run. -/
def runRecords (lp tc : Nat) (p : Kmt) (d : Desc) (r : Run) (i : Nat) (sh : ShareSt) (s : State) : State :=
  let inp := tileInp sh.tile
  let f := r.shares.getD i {}
  let n := fld p.payload 16 2
  if p.src ≠ d.srcEp then engReply lp tc p 0x13 0 [] inp (count 0x03000410 s)
  else match (if n = 0 then none else cutRecords d n ((engData p).drop 8)) with
    | none => engReply lp tc p 0x11 0 [] inp s
    | some recs =>
      if d.count < p.addr + n ∨ (r.tc.map (· != tc)).getD false then engReply lp tc p 0x11 0 [] inp s
      else if movingNow s d then engReply lp tc p 0x02 12 [] inp s
      else
        let bs := (List.range ((p.addr + n - 1 - sh.lo) / 32768 + 1 - (p.addr - sh.lo) / 32768)).map (· + (p.addr - sh.lo) / 32768)
        if bs.any (fun k => !f.retired.contains k && !(evalWindow sh f).contains k) then engReply lp tc p 0x02 12 [] inp s
        else if (List.range n).all (fun k => seenRec f (p.addr + k)) then engReply lp tc p 0 0 [] inp (dupCount d s)
        else
          let s := logInput sh.tile 1 d.comp (kmtBytes p) s
          settleEng (runStep d.id (evalPacket p d i sh f recs tc (engReply lp tc p 0 0 [] inp s)))

/-- Entries of a list packet. -/
def cutEntries : Nat → List Byte → List (Nat × Nat × List Byte)
  | 0, _ => []
  | fuel + 1, b =>
    if b = [] then [] else
    let n := fld b 6 2 % 1024
    (fld b 0 6, fld b 8 8, slice b 16 n) :: cutEntries fuel (b.drop (16 + (n + 7) / 8 * 8))

/-- A list from a member tile at the merging tile (R275). -/
def runList (lp tc : Nat) (p : Kmt) (d : Desc) (r : Run) (s : State) : State :=
  let inp := tileInp (((d.shares[mergeShare d]?).map (·.tile)).getD 0)
  if r.got.contains (subContrib p) then engReply lp tc p 0 0 [] inp (dupCount d s)
  else if movingNow s d then engReply lp tc p 0x02 12 [] inp s
  else
    let es := cutEntries 4096 (engData p)
    let s := setRun d.id (fun r => { r with got := r.got ++ [subContrib p], merged := es.foldl (rankIn d) r.merged }) s
    runStep d.id (engReply lp tc p 0 0 [] inp s)

/-- A packet for a filter run. -/
def filterPacket (lp tc : Nat) (p : Kmt) (d : Desc) (s : State) : State :=
  match d.run? with
  | none => s
  | some r =>
    if p.opcode = 0x52 then (if d.fMode = 3 ∧ subPhase p = 3 then runList lp tc p d r s else engReply lp tc p 0x11 0 [] (tileInp d.unit) s)
    else match shareAt d p.addr with
      | some (i, sh) => runRecords lp tc p d r i sh s
      | none => s

/-- The completion of a run (R276). -/
def runEnd (id : Nat) (g : Gate) (s : State) : State :=
  match findDesc s id with
  | none => s
  | some d => match d.run? with
    | none => s
    | some r => finishDesc id (batchStatus d) (runDone d r) g s

/-- FOUTPUT_RESPONSE (R271, R276). -/
def outputAnswered (p : Kmt) (e : ESent) (s : State) : State :=
  if p.status ≠ 0 then s else
  let (_, s) := takeAnswer e p.src s
  match e.what with
  | .trailer =>
    let (s, g) := commitWork e.desc 2 s
    settleEng (runEnd e.desc g s)
  | .output _ _ n => runStep e.desc (setRun e.desc (fun r => { r with entries := r.entries + n }) s)
  | .final n => runStep e.desc (setRun e.desc (fun r => { r with entries := r.entries + n }) s)
  | _ => s

/-- A run's deadline has passed (R202, R277). -/
def runExpire (d : Desc) (r : Run) (s : State) : State :=
  let t := missTile d fun i => !(shareSeen (d.shares.getD i { tile := 0, lo := 0, hi := 0 }) (r.shares.getD i {}))
  let s := sendTail d 0x59 (r.tc.getD 4) d.outEp 0xFFFF (runTrailer d r 0x40) .trailer none s
  settleEng (finishDesc d.id 0x40 (runDone d r) none (setDesc d.id (fun d => { d with fail := some (t, 0x40) }) s))

def execFilterPost (comp q : Nat) (s : State) : Host.Outcome State Fault Refusal :=
  .next (runCmd comp q 0x32 anyAct filterPostBody s)
def execFrecord (lp tc : Nat) (p : Kmt) (s : State) : Host.Outcome State Fault Refusal :=
  .next (if p.opcode = 0x58 then engPacket filterPacket lp tc p s else s)
def execFoutputResponse (lp tc : Nat) (p : Kmt) (s : State) : Host.Outcome State Fault Refusal :=
  .next (if p.opcode = 0x59 then engAnswer (outputAnswered p) lp tc p s else s)

end Sys2Proof.Machine
end

