-- ==== Sys2Proof/Machine/Ownership.lean ====
section
/-! DEFINITION. Ownership of nodes, batches and runs (R221 to R228, R257, R278, R435): standby copies, handover, claims,
resumption, the Anchor's watches. -/

namespace Sys2Proof.Machine

/-! ### Notices and endings -/

/-- Abort notices of a batch or run to both endpoints (R257, R278). -/
def workAbortNotices (d : Desc) (s : State) : State :=
  let op := if d.kind = 2 then 0x56 else 0x59
  let tc := if d.kind = 2 then 5 else (d.run?.bind (·.tc)).getD 4
  let s := each [d.srcEp, d.outEp] (fun dst s =>
    let p := { engPkt s d op dst d.unit d.outFmt (eunit s d.unit).gen 0xFFFD 0 0 [] with tag := engTag s }
    useFree (launch (tileInp 0) tc p none none s)) s
  count 0x05800490 s

/-- A work ends with ABORTED and its abort notices (R228, R257). -/
def abortOwned (d : Desc) (s : State) : State :=
  let s := setDesc d.id (fun d => { d with standby := false }) s
  let s := if d.kind = 1 then answerHeld d 0x41 (abortNotices d s) else workAbortNotices d s
  settleEng (finishDesc d.id 0x41 (doneItems d) none s)

/-- A work is given up to a greater record: its copy ends with OWNER_CONFLICT (R223, R225). -/
def giveUp (d : Desc) (s : State) : State := settleEng (finishDesc d.id 0x32 (doneItems d) none s)

/-- The active descriptor of a record's work on this Talik. -/
def ownedDesc (s : State) (r : OwnRec) (standby : Bool) : Option Desc :=
  s.eng.descs.find? fun d => d.standby == standby && !d.posting && d.comp == r.comp && d.workId == r.coll && d.ownLevel == r.level && d.ownIdx == r.idx

/-- Owners of child nodes, by index. -/
def childOwners (s : State) (d : Desc) : List Nat :=
  match d.node? with
  | none => []
  | some n => ((List.range n.members.length).zip n.members).filterMap fun k => if k.2.child then some (childAddr s d k.1 k.2).1 else none

/-- Sends a work's OWN_ACCEPT to a Talik, the Anchor, the parent's owner and every child's owner (R223, R225). -/
def tellOwners (d : Desc) (dst : Nat) (rec : List Byte) (s : State) : State :=
  let ts := dst :: (if d.kind = 1 then d.anchorEp :: (if d.isRoot then [] else [(parentAddr s d).1]) ++ childOwners s d else [])
  each ts.eraseDups (fun t s => sendOwn 0x5D t d rec s) s

/-- The Anchor ends a work (R228): OWN_ACCEPT with ABORT to every owner of its record, and the root's completion. -/
def endWork (k coll : Nat) (s : State) : State :=
  let rs := s.eng.recs.filter fun r => r.comp == k && r.coll == coll
  let e := rs.foldl (fun m r => max m r.epoch) 0 + 1
  let s := count 0x05800420 s
  let s := each rs (fun r s =>
    let rec' := le 8 coll ++ le 4 e ++ le 1 r.level ++ le 1 r.commit ++ le 1 1 ++ [0] ++ le 4 r.idx ++ le 4 (selfEp s) ++ le 1 r.unit ++ [0] ++
      le 2 r.gen ++ le 4 r.ep
    if r.ep = selfEp s then
      match ownedDesc s r false with
      | some d => abortOwned d s
      | none => s
    else
      let pl := subBytes 0 0 0 0 0 0 ++ rec'
      let p : Kmt := { opcode := 0x5D, comp := k, len := pl.length, job := 0xFFFF, src := selfEp s, dst := r.ep, tag := engTag s, payload := pl }
      useFree (sendDst (tileInp 0) 2 p none s)) s
  let s := match s.eng.descs.find? fun d => d.standby && !d.posting && d.comp == k && d.workId == coll && (d.kind != 1 || d.isRoot) with
    | some d => abortOwned d s
    | none => s
  { s with eng.watches := s.eng.watches.filter fun w => w.comp != k || w.coll != coll }

/-- The Anchor's 15 µs watch on a node (R228). -/
def startWatch (r : OwnRec) (epoch : Nat) (s : State) : State :=
  let (id, s) := newId s
  { s with eng.watches := s.eng.watches ++ [{ id, comp := r.comp, coll := r.coll, level := r.level, idx := r.idx, epoch, at_ := s.clock.clk }] }

/-- OWNERSHIP_WATCH_EXPIRY. -/
def ownershipWatchExpiry (id : Nat) (s : State) : State :=
  if !running s then s else
  match s.eng.watches.find? (·.id == id) with
  | none => s
  | some w =>
    let s := atLeast (w.at_ + 15000) { s with eng.watches := s.eng.watches.filter (·.id != id) }
    if s.eng.recs.any fun r => r.comp == w.comp && r.coll == w.coll && r.level == w.level && r.idx == w.idx && decide (w.epoch < r.epoch) then s
    else endWork w.comp w.coll s

/-! ### Standby copies (R222, R257, R278) -/

/-- The descriptor of a standby copy on PARTNER_UNIT, before its work is set. -/
def copyDesc (s : State) (raw : List Byte) : Desc :=
  let d0 : Desc := { id := 0, unit := 0, raw, shares := [], work := .node {} }
  let raw' := raw.take 2 ++ le 1 d0.partnerUnit ++ slice raw 3 1 ++ le 2 d0.partnerGen ++ raw.drop 6
  let d := newDesc s raw' (if d0.kind = 1 then 1024 else 1) (.node {})
  { d with standby := true }

/-- Can PARTNER_UNIT hold the copy? -/
def copyFits (s : State) (k : Nat) (d : Desc) (version : Nat) : Bool :=
  let u := eunit s d.unit
  unitThere s d.unit && u.parent.isNone && u.st == 0 && !u.rstBusy && u.role == d.kind && u.comp == k && u.gen == d.partnerGen &&
  decide ((activeOn s d.unit).length < 32) &&
  (d.kind != 2 || ((gtable s d.gTable).map fun t => t.vers.any (·.version == version)).getD false) &&
  (d.kind != 3 || slotsFree s d)

/-- An OWN accept record places the standby copy, or counts that it could not (R222, R257). `b`: the ownership record, the
descriptor, and a member table or bound version. -/
def placeCopy (k node : Nat) (b : List Byte) (s : State) : State :=
  let r := ownOf k node b
  let n := 64 + fld b (32 + 12) 2
  let raw := slice b 32 n
  let extra := b.drop (32 + n)
  let d := copyDesc s raw
  let s := keepRec r s
  let s := if d.kind = 1 then s else { s with eng.unplaced := s.eng.unplaced.filter (fun u => !(u.own.same r)) ++ [{ own := r, raw }] }
  if !d.wantsStandby then s
  else if !copyFits s k d (fld extra 0 4) then
    let s := count 0x05800418 s
    if bit (reg s 0x05800010) 0 then attn 4 s else s
  else
    let d := { d with epoch := r.epoch, commit := r.commit }
    let d := if d.kind = 1 then
        let es := (List.range d.nmemb).map fun j => memberOf (slice extra (16 * j) 16)
        { d with work := .node { members := es, segs := d.shares.map fun _ => 0 } }
      else if d.kind = 2 then batchDesc d (fld extra 0 4) else runDesc d
    let s := if d.kind = 3 then takeSlots d s else s
    { s with
      eng.descs := s.eng.descs ++ [d], xlt.nextId := s.xlt.nextId + 1
      eng.unplaced := s.eng.unplaced.filter fun u => !(u.own.same r) }

/-- An OWN commit or ownership change record updates the copy. -/
def updateCopy (k node : Nat) (b : List Byte) (s : State) : State :=
  let r := ownOf k node b
  let s := keepRec r s
  let s := { s with eng.unplaced := s.eng.unplaced.map fun u => if u.own.same r then { u with own := r } else u }
  match ownedDesc s r true with
  | some d => setDesc d.id (fun d => { d with commit := r.commit, epoch := r.epoch }) s
  | none => s

/-- An OWN record at the Partner (Table 15-4). -/
def ownLogged (k node : Nat) (body : List Byte) (s : State) : State :=
  let b := body.drop 8
  if byteAt body 0 = 1 then placeCopy k node b s else updateCopy k node b s

/-! ### Claims and resumption (R223, R224, R226, R257) -/

/-- A resend request of a batch or run to its source and destination (R257). -/
def workResends (d : Desc) (s : State) : State :=
  let op := if d.kind = 2 then 0x56 else 0x59
  let tc := if d.kind = 2 then 5 else 4
  each [d.srcEp, d.outEp] (fun dst s => count 0x05800410 (sendTail d op tc dst 0xFFFE [] .resend none s)) s

/-- Sums of a batch or run gained after its outputs were delivered: the log does not carry them, so they are free (R257). -/
def freeSums (id : Nat) (s : State) : State :=
  let v := fun k => Config.freeValue (s.freeCtr + k)
  let s := { s with freeCtr := s.freeCtr + 6 }
  let s := setDesc id (fun d => { d with flags := v 0 % 16, fail := if v 1 % 256 = 0 then none else some (d.unit, v 1 % 256) }) s
  let s := setBatch id (fun b => { b with ok := v 2 % 2 ^ 24, vsum := v 3 % 2 ^ 64, dropped := v 4 % 2 ^ 64, rows := v 5 % 2 ^ 64 }) s
  setDesc id (fun d => match d.work with
    | .run r => { d with work := .run { r with
        evaluated := d.count, accepts := v 2 % 2 ^ 64, entries := v 3 % 2 ^ 64, final := true
        shares := (d.shares.zip r.shares).map fun p => { p.2 with sent := List.range (nBlocks p.1) } } }
    | _ => d) s

/-- The Talik that gains a work resumes it from its last commit (R226, R257, R278). -/
def resumeWork (id : Nat) (s : State) : State :=
  match findDesc s id with
  | none => s
  | some d =>
    if d.kind = 1 then
      if d.isRoot then
        if d.commit ≤ d.depth then (if d.early then endWork d.comp d.workId s else advanceNode id (sendResends id s))
        else nodeStep id (setNode id (fun n => { n with upDone := true }) s)
      else if d.level ≤ d.commit then setNode id (fun n => { n with upDone := true }) s
      else advanceNode id (sendResends id s)
    else
      let send := fun s =>
        let s := setBatch id (fun b => { b with trailer := true }) (setRun id (fun r => { r with trailer := true }) s)
        match findDesc s id with
        | none => s
        | some d =>
          let data := match d.work with
            | .batch b => trailerData d b (batchStatus d)
            | .run r => runTrailer d r (batchStatus d)
            | .node _ => []
          sendTail d (if d.kind = 2 then 0x56 else 0x59) (if d.kind = 2 then 5 else 4) d.outEp 0xFFFF data .trailer none s
      if d.commit = 0 then settleEng (workResends d s)
      else
        let s := freeSums id s
        if d.commit = 1 then send s
        else
          let s := setBatch id (fun b => { b with trailer := true }) (setRun id (fun r => { r with trailer := true }) s)
          settleEng (if d.kind = 2 then batchEnd id none s else runEnd id none s)

/-- A standby copy is claimed with an epoch, from the owner at an endpoint (R223, R224). -/
def claimCopy (d : Desc) (epoch prev : Nat) (s : State) : State :=
  let s := setDesc d.id (fun d => { d with standby := false, epoch, moving := false }) s
  let d := { d with standby := false, epoch }
  let s := keepRec (ownNow s d epoch false prev) s
  let s := tellOwners d prev (ownRecord s d epoch false prev) s
  let s := if d.kind = 1 then s else anchorHere d.comp d.workId s
  let s := (logOwn 3 d [] s).1
  resumeWork d.id s

/-- A work is handed over: OWN_OFFER to the Partner and the Anchor (R223). -/
def startHandover (d : Desc) (s : State) : State :=
  let s := setDesc d.id (fun d => { d with moving := true }) s
  let rec' := ownRecord s d (d.epoch + 1) false (selfEp s)
  let s := sendOwn 0x5C s.flt.partnerEp d rec' s
  let r := ownNow s d d.epoch false (selfEp s)
  if d.kind = 1 ∧ d.anchorEp ≠ selfEp s then (if d.anchorEp = s.flt.partnerEp then s else sendOwn 0x5C d.anchorEp d rec' s)
  else startWatch r d.epoch s

/-- The Partner is lost: its works are claimed where a copy stands (R224); a batch or run without one ends by abort notices
(R257); the Anchor watches the rest (R228). -/
def claimLost (ep : Nat) (s : State) : State :=
  let mine := s.eng.descs.filter fun d => d.standby && s.eng.recs.any fun r =>
    r.comp == d.comp && r.coll == d.workId && r.level == d.ownLevel && r.idx == d.ownIdx && r.ep == ep
  let s := each mine (fun d s =>
    let top := (s.eng.recs.filter fun r => r.comp == d.comp && r.coll == d.workId && r.level == d.ownLevel && r.idx == d.ownIdx).foldl
      (fun m r => max m r.epoch) d.epoch
    claimCopy d (top + 1) ep (count 0x05800400 s)) s
  let s := each (s.eng.unplaced.filter (·.own.ep == ep)) (fun u s => workAbortNotices (copyDesc s u.raw) s) s
  let s := { s with eng.unplaced := s.eng.unplaced.filter (·.own.ep != ep) }
  each (s.eng.recs.filter fun r => r.ep == ep && s.eng.anchored.contains (r.comp, r.coll)) (fun r s => startWatch r r.epoch s) s

/-! ### Records received -/

/-- Packets still out to a neighbour node go to the owner that now holds it, with RTX = 1 (R221, R226). -/
def readdress (k coll : Nat) (s : State) : State :=
  each (s.eng.sent.filter (·.group.isNone)) (fun e s =>
    match findDesc s e.desc with
    | none => s
    | some d =>
      if d.comp ≠ k ∨ d.workId ≠ coll ∨ d.kind ≠ 1 then s else
      let kid := fun i => (d.node?.bind fun n => n.members[i]?).bind fun m => if m.child then some (childAddr s d i m) else none
      let new := match e.what with
        | .part _ => some (parentAddr s d)
        | .result _ => kid (subContrib e.pkt)
        | .release => kid (subContrib e.pkt)
        | .resend => kid (subContrib e.pkt)
        | _ => none
      match new with
      | none => s
      | some (ep, unit, gen) =>
        if ep = e.pkt.dst ∧ unit = subUnit e.pkt ∧ gen = subGen e.pkt then s else
        let pl := le 1 unit ++ slice e.pkt.payload 1 1 ++ le 2 gen ++ e.pkt.payload.drop 4
        let pkt := { e.pkt with dst := ep, rtx := true, payload := pl }
        let s := { s with eng.sent := modIf (·.tag == e.tag) (fun x => { x with pkt }) s.eng.sent }
        if e.gone then launch e.inp e.tc pkt none none s else s) s

/-- A record meets the work that this Talik owns (R223, R225); false when it owns no such work. -/
def meetOwner (r : OwnRec) (offer : Bool) (src : Nat) (s : State) : State :=
  match ownedDesc s r false with
  | none => s
  | some d =>
    let mine := { ownNow s d d.epoch false (selfEp s) with node := s.sec.nodeId }
    if r.gt mine then
      if r.abort then abortOwned d s
      else if !offer ∧ d.moving then giveUp d (count 0x05800400 s)
      else
        let s := count 0x05800408 s
        giveUp d (if bit (reg s 0x05800010) 1 then attn 4 s else s)
    else if mine.gt r ∧ src ≠ selfEp s then tellOwners d src (ownRecord s d d.epoch false (selfEp s)) s
    else s

/-- Sender checks of OWN_OFFER and OWN_ACCEPT: those of Table 6-8 that concern the sender. -/
def ownRow (s : State) (lp tc : Nat) (p : Kmt) : Row :=
  (Row.when (decide (p.len < 48) || decide (4112 < p.len) || !engClassOk p.opcode tc) 0x11 0 0x03000400).or <|
  (Row.when (s.dev.devState == .baseCamp) 0x02 15).or <|
  (Row.when (decide (lp < 768) && modeOf s lp == 2) 0x13 0 0x03000410).or <|
  (Row.when (decide (lp < 768) && modeOf s lp == 1 && (!epValid s lp || p.src != epId s lp || p.comp != epComp s lp)) 0x13 0 0x03000410).or <|
  Row.when (!compLive s p.comp) 0x51

/-- An ownership packet: forwarded, checked, answered OK, and acted on. -/
def ownPacket (act : OwnRec → State → State) (lp tc : Nat) (p : Kmt) (s : State) : State :=
  if !engTakes s lp then s
  else if p.rsp then (if p.dst = selfEp s then takeRx lp tc p s else if lp = 0x3FF then s else msgResponse lp tc p s)
  else if p.dst ≠ selfEp s then (if lp = 0x3FF then s else message lp tc p s)
  else
    let s := takeRx lp tc p s
    let r := ownRow s lp tc p
    if r.status ≠ 0 then engReply lp tc p r.status r.load [] (tileInp 0) (rowCount r s)
    else act (ownOf p.comp (nodeOfEp s p.src) (engData p)) (engReply lp tc p 0 0 [] (tileInp 0) s)

/-- OWN_OFFER: the Partner claims on its standby copy, and the Anchor starts its watch (R223, R228). -/
def offered (src : Nat) (r : OwnRec) (s : State) : State :=
  match ownedDesc s r true with
  | some d => if d.epoch < r.epoch then claimCopy { d with commit := r.commit } r.epoch src (setDesc d.id (fun d => { d with commit := r.commit }) s) else s
  | none =>
    if (ownedDesc s r false).isSome then meetOwner r true src s
    else if s.eng.anchored.contains (r.comp, r.coll) then startWatch r (r.epoch - 1) s
    else s

/-- OWN_ACCEPT (R221, R223, R225, R228). -/
def accepted (src : Nat) (r : OwnRec) (s : State) : State :=
  let s := meetOwner r false src s
  if r.abort then s else
  let s := if r.epoch = 1 then anchorHere r.comp r.coll s else s
  readdress r.comp r.coll (keepRec r s)

/-- A fence lifts: the packets held back leave, and works go on (R435). -/
def resumeFenced (s : State) : State :=
  let held := s.eng.sent.filter (!·.gone)
  let s := { s with eng.sent := s.eng.sent.map fun e => { e with gone := true } }
  let s := each held (fun e s => launch e.inp e.tc e.pkt e.group none s) s
  settleEng (each (s.eng.descs.map (·.id)) (fun id s => runStep id (nodeStep id s)) s)

def execOwnOffer (lp tc : Nat) (p : Kmt) (s : State) : Host.Outcome State Fault Refusal :=
  .next (if p.opcode = 0x5C then ownPacket (offered p.src) lp tc p s else s)
def execOwnAccept (lp tc : Nat) (p : Kmt) (s : State) : Host.Outcome State Fault Refusal :=
  .next (if p.opcode = 0x5D then ownPacket (accepted p.src) lp tc p s else s)
def execOwnershipWatchExpiry (id : Nat) (s : State) : Host.Outcome State Fault Refusal := .next (ownershipWatchExpiry id s)

end Sys2Proof.Machine
end

