-- ==== Sys2Proof/Machine/Units.lean ====
section
/-! DEFINITION. Commands that concern any engine unit: role changes, Ropes, engine packets handed to the unit's role,
deadline checks, resets and SRAM errors (R178 to R184, R201 to R205). -/

namespace Sys2Proof.Machine

/-- An engine packet goes to the work of the descriptor that it names. -/
def workPacket (lp tc : Nat) (p : Kmt) (d : Desc) (s : State) : State :=
  match d.work with
  | .node _ => nodePacket lp tc p d s
  | .batch _ => gatherPacket lp tc p d s
  | .run _ => filterPacket lp tc p d s

/-- A work that has lost a share goes on, and ends when its other shares have ended (R29, R204). -/
def workStep (id : Nat) (s : State) : State := settleEng (runStep id (advanceNode id s))

/-- A descriptor's deadline has passed (R202). A standby copy that nobody has claimed goes silently. -/
def descExpire (d : Desc) (s : State) : State :=
  if d.posting then s
  else if d.standby then settleEng (dropDesc d.id 0x40 s)
  else match d.work with
    | .node n => nodeExpire d n s
    | .batch b => batchExpire d b s
    | .run r => runExpire d r s

/-- ENG_DEADLINE_CHECK (R201). -/
def engDeadlineCheck (u : Nat) (s : State) : State :=
  if !running s ∨ s.dev.devState = .seconding then s else
  each ((activeOn s u).filter fun d => d.deadline != 0 && decide (d.deadline < s.clock.tb)) descExpire s

/-- ENG_CTL.RESET and ENG_ROPE_CTL.RESET (R203): the outermost Rope is reset. -/
def resetEngUnit (u : Nat) (s : State) : State :=
  let top := topOf s u
  if !unitThere s top then s else settleEng (beginReset top (stopUnit top 0x41 s))

/-- SRAM_UE (R204): the tile's shares end with INTERNAL_FAULT; the rest of a Rope goes on. -/
def sramUe (tile : Nat) (s : State) : State :=
  if !running s ∨ 64 ≤ tile then s else
  let ds := activeOn s (topOf s tile)
  let s := failTile tile s
  each (ds.filter fun d => d.shares.any fun sh => sh.tile == tile && !sh.dead) (fun d s =>
    let s := setDesc d.id (fun d => { d with
      shares := modIf (·.tile == tile) (fun sh => { sh with dead := true }) d.shares, fail := d.fail.or (some (tile, 0x60)) }) s
    if d.standby then s
    else if (d.shares.filter (!·.dead)).all (·.tile == tile) then
      settleEng (finishDesc d.id 0x60 (doneItems d) none (answerHeld d 0x60 s))
    else workStep d.id s) s

/-- ROLE_DRAIN_TIMEOUT (R178 step 2), once DRAIN_US has passed. -/
def engDrainTimeout (u : Nat) (s : State) : State :=
  match (eunit s u).change with
  | some { status, drainAt := some t, .. } => if running s then settleEng (stopUnit u status (atLeast t s)) else s
  | _ => s

/-- EPART_RESPONSE: of a node's partial (R216), or of a top-k list (R275). -/
def epartAnswered (p : Kmt) (e : ESent) (s : State) : State :=
  match e.what with
  | .list _ => if p.status = 0 then (takeAnswer e p.src s).2 else s
  | _ => settleEng (partAnswered p e s)

def execRopeForm (comp q : Nat) (s : State) : Host.Outcome State Fault Refusal :=
  .next (runCmd comp q 0x20 (· == 1) ropeFormBody s)
def execRopeDissolve (comp q : Nat) (s : State) : Host.Outcome State Fault Refusal :=
  .next (runCmd comp q 0x20 (· == 2) ropeDissolveBody s)
def execEcontrib (lp tc : Nat) (p : Kmt) (s : State) : Host.Outcome State Fault Refusal :=
  .next (if p.opcode = 0x50 then engPacket workPacket lp tc p s else s)
def execEbarrier (lp tc : Nat) (p : Kmt) (s : State) : Host.Outcome State Fault Refusal :=
  .next (if p.opcode = 0x53 then engPacket workPacket lp tc p s else s)
def execEpart (lp tc : Nat) (p : Kmt) (s : State) : Host.Outcome State Fault Refusal :=
  .next (if p.opcode = 0x52 then engPacket workPacket lp tc p s else s)
def execEpartResponse (lp tc : Nat) (p : Kmt) (s : State) : Host.Outcome State Fault Refusal :=
  .next (if p.opcode = 0x52 then engAnswer (epartAnswered p) lp tc p s else s)
def execEresult (lp tc : Nat) (p : Kmt) (s : State) : Host.Outcome State Fault Refusal :=
  .next (if p.opcode = 0x51 then engPacket workPacket lp tc p s else s)
def execEresultResponse (lp tc : Nat) (p : Kmt) (s : State) : Host.Outcome State Fault Refusal :=
  .next (if p.opcode = 0x51 then engAnswer (fun e s => settleEng (resultAnswered p e s)) lp tc p s else s)
def execEngDeadlineCheck (unit : Nat) (s : State) : Host.Outcome State Fault Refusal := .next (engDeadlineCheck unit s)
def execEngResetDone (unit : Nat) (clean : Bool) (s : State) : Host.Outcome State Fault Refusal :=
  .next (if unit < 128 then endReset unit clean s else s)
def execSramUe (tile : Nat) (s : State) : Host.Outcome State Fault Refusal := .next (sramUe tile s)

end Sys2Proof.Machine
end

