-- ==== Sys2Proof/Machine/Haul.lean ====
section
/-! DEFINITION. Haul engines (chapter 10): descriptors, stored blocks and their checks, codebooks, expansion, delivery by PUT,
and how a descriptor ends. -/

namespace Sys2Proof.Machine

/-! ### Units, descriptors and counters -/

/-- Address of a counter of a Haul unit (Table 10-15). -/
def haulCtr (u engOff ropeOff : Nat) : Nat :=
  if u < 32 then 0x06000000 + u * 0x10000 + engOff else 0x06400000 + (u - 32) * 0x100 + ropeOff

/-- Active descriptors of a Haul unit, in order of acceptance (R298). -/
def haulOn (s : State) (u : Nat) : List HDesc := s.haul.descs.filter (·.unit == u)

def findHaul (s : State) (id : Nat) : Option HDesc := s.haul.descs.find? (·.id == id)

/-- Changes a Haul descriptor, or one of its shares. -/
def setHaul (id : Nat) (f : HDesc → HDesc) (s : State) : State :=
  { s with haul.descs := modIf (·.id == id) f s.haul.descs }
def setHShare (id i : Nat) (f : HShare → HShare) (s : State) : State :=
  setHaul id (fun d => { d with shares := d.shares.modify i f }) s

/-- The first four active descriptors of a unit run (R298). -/
def haulRuns (s : State) (d : HDesc) : Bool := ((haulOn s d.unit).take 4).any (·.id == d.id)

/-- Crest of a Haul engine (R15). -/
def engineCrest (h : Nat) : Nat := h / 8 % 4

/-- Counts bytes at an engine, but not for a CONFIDENTIAL composition (R311). -/
def hiddenCount (k engine off n : Nat) (s : State) : State :=
  if conf s k then s else countN (haulCtr engine off 0) n s

/-- Raises ATTN_N for a Haul unit, with its event (R364). -/
def haulAttn (d : HDesc) (counter : Nat) (s : State) : State := event d.comp 5 d.unit counter (attn 5 s)

/-! ### Regions -/

/-- The STREAM region of a composition that holds a range (R146, R304). -/
def streamAt (s : State) (k space a n : Nat) : Option Region :=
  if !(((mget s.xlt.spaces space).map fun x => x.comp == k && !x.shadow).getD false) then none else
  (s.dir.regions.find? fun r => r.2.mode == 2 && r.2.space == space && decide (r.2.base ≤ a) &&
    decide (a + n ≤ r.2.base + r.2.size)).map (·.2)

/-- Is the region at an offset CONFIDENTIAL? -/
def streamConf (s : State) (k space a : Nat) : Bool := ((streamAt s k space a 1).map (·.conf)).getD false

/-! ### Checks of a descriptor (Table 10-7) -/

/-- A descriptor of a unit, from its bytes; `win`: the place of each share in a card's window (R296, R326). -/
def haulDesc (s : State) (raw : List Byte) (card : Option (Nat × Nat × Nat)) (held : Bool) (win : Nat → Option Nat) : HDesc :=
  let d : HDesc := { id := s.xlt.nextId, unit := byteAt raw 2 % 64, raw, shares := [], card, held, deadline := fld raw 16 8 }
  let sp := splitSpan s 1 65 (128 + d.unit) 0 d.nblk
  let mk := fun (p : Nat × ShareSt) =>
    ({ engine := p.2.tile, lo := p.2.lo, hi := p.2.hi, next := p.2.lo, cur := p.2.lo
       elem := if p.2.lo = 0 then some d.elemBase else none
       preload := if d.expand && decide (p.2.lo < p.2.hi) then d.cbl.eraseDups else []
       win := win p.1 } : HShare)
  { d with
    shares := ((List.range sp.length).zip sp).map mk
    dests := if !d.expand then [] else if d.mcast then (groupPorts s (d.dest % 4096)).map (epId s) else [d.dest % 2 ^ 18] }

/-- A multicast group that R300 does not allow. -/
def groupBad (s : State) (g k : Nat) : Bool :=
  let ps := groupPorts s g
  groupComp s g != k || groupTiles s g != [] || decide (64 < ps.length) ||
  ps.any fun l => modeOf s l != 1 || !epValid s l || epComp s l != k

/-- Reserved encodings and fields out of range of a Haul descriptor (Tables 10-5 and 10-7). -/
def haulFields (d : HDesc) : Bool :=
  let x := d.expand
  let off := fun o m => decide (2 ^ 46 ≤ d.h o 8) || d.h o 8 % m != 0
  (d.h 0 1 != 1 && d.h 0 1 != 2) || decide (8 ≤ d.h 1 1) || decide (64 ≤ d.h 2 1) || decide (64 ≤ d.h 3 1) ||
  !(if x then [0x02, 0x04, 0x05, 0x06, 0x07, 0x0A].contains d.outFmt else d.outFmt == 0) ||
  decide ((if x then 8 else 0) < d.ncb) || decide (1024 ≤ d.h 14 2) || d.nblk == 0 ||
  d.slot % 8 != 0 || decide (d.slot < 64) || decide (8192 < d.slot) || decide (1024 ≤ d.h 30 2) || off 32 8 ||
  decide (1024 ≤ d.h 40 2) || !zeroAt d.raw 42 6 || off 48 4096 || off 56 32 || decide (2 ^ 46 ≤ d.h 64 8) || (x && d.elems == 0) ||
  decide ((if d.mcast then 2 ^ 12 else 2 ^ 18) ≤ d.dest) || decide (1024 ≤ d.h 76 2) || !zeroAt d.raw 78 2 || off 80 4096 || off 88 4096 ||
  (!fmtMx d.outFmt && d.scaleOff != 0) || off 96 8 || d.cbl.any (fun i => decide (64 ≤ i)) ||
  ((List.range 8).any fun i => decide (d.ncb ≤ i) && d.h (112 + i) 1 != 0) || !zeroAt d.raw 120 8

/-- Row BAD_PARAM of Table 10-7. `card`: a Route Card's step, which names no ring (R323). -/
def haulBad (s : State) (d : HDesc) (card : Bool) : Bool :=
  let ringOk := ((findRing s d.comp d.ring).map fun r => decide (6 ≤ r.esize)).getD false
  haulFields d || (!card && (bit d.descId 31 || !ringOk)) || (d.expand && d.mcast && groupBad s d.dest d.comp) || anyFailed s (128 + d.unit)

/-- Range rows of Table 10-7 and R309. -/
def haulRange (s : State) (d : HDesc) : Row :=
  let k := d.comp
  match streamAt s k d.srcSpace d.srcAddr (d.nblk * d.slot) with
  | none => { status := 0x12 }
  | some r =>
    if d.expand then Row.when (streamAt s k d.cbSpace d.cbAddr 4096).isNone 0x12
    else match streamAt s k d.win d.outOff (d.nblk * d.slot) with
      | none => { status := 0x12 }
      | some q => Row.when (q.conf != r.conf) 0x11

/-- Is a destination on a logical port without MACSEC_REQ? -/
def destOpen (s : State) (d : HDesc) : Bool :=
  d.expand && if d.mcast then (groupPorts s d.dest).any (fun l => !macsecReq s l) else
    match routeOf s d.dest with
    | .port l => !macsecReq s l
    | _ => false

/-- The first row of Table 10-7 that holds. -/
def haulRow (s : State) (raw : List Byte) (card : Bool) : Row :=
  let d : HDesc := { id := 0, unit := byteAt raw 2 % 64, raw, shares := [] }
  let e := eunit s (128 + d.unit)
  let k := d.comp
  (Row.when (s.dev.devState == .baseCamp || s.dev.devState == .quiesced) 0x02 15).or <|
  (Row.when (!compLive s k) 0x51).or <|
  (Row.when (!unitThere s (128 + d.unit)) 0x12).or <|
  (Row.when (e.parent.isSome || e.st != 0 || e.gen != d.h 4 2 || e.role != 1) 0x30 0 (haulCtr d.unit 0x118 0x48)).or <|
  (Row.when (e.comp != k || !jobOf s d.job k) 0x13 0 0x03000410).or <|
  (Row.when (haulBad s d card) 0x11).or <|
  (haulRange s d).or <|
  (Row.when (conf s k && destOpen s d) 0x52).or <|
  (Row.when (decide (16 ≤ (haulOn s d.unit).length)) 0x02 12).or <|
  Row.when (d.h 16 8 != 0 && decide (d.h 16 8 < s.clock.tb)) 0x40 0 (haulCtr d.unit 0x120 0x50)

/-! ### Stored blocks and chunks (Table 10-8, R284 to R292) -/

/-- What the checks of a stored block or chunk come to: its body, its key generation (0 in clear) and LAST; a CRC that fails;
or a status. -/
inductive Opened where
  | ok (body : List Byte) (gen : Nat) (last : Bool)
  | crc
  | fail (status : Nat)
  deriving DecidableEq, Repr

/-- Weight key of a generation held for a composition (R387). -/
def weightKey (s : State) (k gen : Nat) : Option (List Byte) :=
  (s.sec.keys.find? fun x => x.1 == k && x.2.1 == gen).map (·.2.2)

/-- The first three rows: envelope, length, CRC. Status 0 when none holds, 1 for the CRC. -/
def envRow (chunk : Bool) (k slot : Nat) (b : List Byte) : Nat :=
  let n := envLen b
  if fld b 0 2 ≠ 0x48A7 ∨ byteAt b 2 ≠ 1 ∨ 8 ≤ byteAt b 3 ∨ bit (byteAt b 3) 2 ≠ chunk ∨ fld b 8 4 ≠ k % 2 ^ 32 then 0x22
  else if n % 8 ≠ 0 ∨ n < 64 ∨ slot < n ∨ (chunk ∧ n ≠ if envEnc b then 4096 else 4056) then 0x23
  else if fld b (n - 8) 4 ≠ crc32c (b.take (n - 8)) ∨ fld b (n - 4) 4 ≠ 0 then 1
  else 0

/-- The checks up to the GCM tag, and the opened body. -/
def openBlock (s : State) (k nsalt : Nat) (confd chunk : Bool) (num slot : Nat) (b : List Byte) : Opened :=
  let n := envLen b
  let r := envRow chunk num slot b
  if r = 1 then .crc
  else if r ≠ 0 then .fail r
  else if envEnc b ≠ confd ∨ fld b 12 4 ≠ nsalt then .fail 0x22
  else if !envEnc b then .ok (slice b 16 (n - 24)) 0 (envLast b)
  else if !chunk && !([1024, 2048, 4096, 8192].contains n) then .fail 0x23
  else match weightKey s k (envKgen b) with
    | none => .fail 0x50
    | some key => match Config.gcmOpen key (slice b 4 12) (b.take 16) (slice b 16 (n - 24)) with
      | none => .fail 0x22
      | some body => .ok (padTo (n - 40) body) (envKgen b) (envLast b)

/-! ### Codebook images (R288, Table 10-4) -/

def imgN (img : List Byte) : Nat := byteAt img 1
def imgLen (img : List Byte) : Nat := fld img 4 4
def imgId (img : List Byte) : Nat := fld img 8 8
/-- Entry of a codebook in the image. -/
def imgEnt (img : List Byte) (i : Nat) : List Byte := slice img (64 + 16 * i) 16

/-- Bytes of a codebook. -/
def bookLen (e : List Byte) : Nat := entN e * entDim e * (fmtBits (entFmt e) / 8)

/-- An entry out of range, or a codebook beyond ILEN. -/
def entBad (img : List Byte) (i : Nat) : Bool :=
  let e := imgEnt img i
  !([4, 8, 16].contains (entDim e)) || !([2, 3, 4, 5].contains (entFmt e)) || !zeroAt e 2 2 || entN e == 0 || decide (65536 < entN e) ||
  entOff e % 64 != 0 || decide (entOff e < 64 + 16 * imgN img) || decide (imgLen img < entOff e + bookLen e)

/-- Image header or a codebook entry out of range. -/
def imgBad (img : List Byte) : Bool :=
  byteAt img 0 != 1 || imgN img == 0 || decide (64 < imgN img) || !zeroAt img 2 2 || !zeroAt img 16 48 ||
  decide (imgLen img < 64 + 16 * imgN img) || (List.range (imgN img)).any (entBad img)

/-- Chunks that hold a codebook. -/
def bookChunks (e : List Byte) : List Nat :=
  let a := entOff e / 4032
  (List.range ((entOff e + bookLen e - 1) / 4032 + 1 - a)).map (a + ·)

/-- A codebook that is resident in an engine (R308). -/
def findBook (s : State) (h k image i : Nat) : Option CBook :=
  s.haul.books.find? fun b => b.engine == h && b.comp == k && b.image == image && b.index == i

/-! ### Inner block (Table 10-3, R286 to R289) -/

/-- Codebooks that a block names. -/
def blockBooks (b : List Byte) : List Nat :=
  if innW2 b = 0 then [innCb1 b] else [innCb1 b, innCb2 b].eraseDups

/-- A code: `w` bits at bit `o` of the code field (R287). -/
def codeAt (b : List Byte) (o w : Nat) : Nat := fld b (32 + o / 8) ((o % 8 + w + 7) / 8) >>> (o % 8) % 2 ^ w

/-- The inner rows of Table 10-8 in order, but for the last: 0 when none holds. -/
def innerRow (d : HDesc) (sh : HShare) (img : List Byte) (last enc : Bool) (b : List Byte) : Nat :=
  let dm := innDim b
  let w1 := innW1 b
  let w2 := innW2 b
  let nv := innVec b
  let bitsN := nv * (w1 + w2)
  if byteAt b 0 ≠ 1 ∨ !([4, 8, 16].contains dm) ∨ w1 < 8 ∨ 16 < w1 ∨ (w2 ≠ 0 ∧ (w2 < 8 ∨ 16 < w2)) ∨ nv = 0 ∨ 4096 < nv ∨ 16384 < nv * dm ∨
      (!last ∧ nv * dm % 32 ≠ 0) ∨ 2 ^ 46 ≤ innElem b ∨ innElem b % 32 ≠ 0 ∨ innElem b < d.elemBase ∨
      (sh.elem.any (· != innElem b)) ∨ !zeroAt b 20 12 then 0x22
  else if innClen b ≠ ceilDiv bitsN 64 * 8 ∨ (!enc ∧ b.length ≠ 32 + innClen b) ∨ b.length < 32 + innClen b ∨
      (b.drop (32 + innClen b)).any (· != 0) then 0x23
  else
    let bs := blockBooks b
    if bs.any (fun i => decide (imgN img ≤ i) || entDim (imgEnt img i) != dm) ∨ (w2 = 0 ∧ innCb2 b ≠ 0xFF) ∨
        2097152 < sum (bs.map fun i => bookLen (imgEnt img i)) ∨
        ((List.range nv).any fun v => decide (entN (imgEnt img (innCb1 b)) ≤ codeAt b (v * (w1 + w2)) w1) ||
          (w2 != 0 && decide (entN (imgEnt img (innCb2 b)) ≤ codeAt b (v * (w1 + w2) + w1) w2))) ∨
        fld (slice b 32 (innClen b)) 0 (innClen b) >>> bitsN ≠ 0 then 0x22
    else 0

/-- Element i of entry j of a codebook, as FP32 (R196, R288). -/
def bookElem (c : CBook) (j i : Nat) : Nat :=
  let n := fmtBits (entFmt c.ent) / 8
  (f32of (decodeElem (fmtOf (entFmt c.ent)) (fld c.bytes ((j * entDim c.ent + i) * n) n))).1

/-- Values of a block and their flags (R289). -/
def expandBlock (c1 : CBook) (c2 : Option CBook) (b : List Byte) : List (Nat × Nat) :=
  let w1 := innW1 b
  let w2 := innW2 b
  let scale := innScale b * 65536
  ((List.range (innVec b)).map fun v =>
    let j1 := codeAt b (v * (w1 + w2)) w1
    let j2 := codeAt b (v * (w1 + w2) + w1) w2
    (List.range (innDim b)).map fun i =>
      let (t, f) := f32mul (bookElem c1 j1 i) (entScale c1.ent)
      let (t, f) := match c2 with
        | none => (t, f)
        | some c =>
          let (u, g) := f32mul (bookElem c j2 i) (entScale c.ent)
          let (r, h) := f32add t u
          (r, f ||| g ||| h)
      let (r, g) := f32mul t scale
      (r, f ||| g)).flatten

/-- Element bytes, scale bytes and flags of values in OUT_FMT (R290, R299). -/
def packOut (fmt : Nat) (vs : List (Nat × Nat)) : List Byte × List Byte × Nat :=
  let fl := orFlags (vs.map (·.2))
  let fv := vs.map fun v => f32val v.1
  if fmtMx fmt then
    let bs := (chunksOf 32 (fv.length + 1) fv).map fun c =>
      let (x, f) := encodeMx fmt c
      (x.take 1, (x.drop 1).take (ceilDiv (c.length * fmtBits fmt) 8), f)
    ((bs.map (·.2.1)).flatten, (bs.map (·.1)).flatten, fl ||| orFlags (bs.map (·.2.2)))
  else
    let (x, f) := encodeFs fmt fv
    (x, [], fl ||| f)

/-- Window offset of an element, and of the scale byte of its MX block (R299). -/
def outAddr (d : HDesc) (e : Nat) : Nat := d.outOff + (e - d.elemBase) * fmtBits d.outFmt / 8
def scaleAddr (d : HDesc) (e : Nat) : Nat := d.scaleOff + (e - d.elemBase) / 32

/-! ### Ends -/

/-- Drops what a descriptor still holds: its queued output and input buffer, and its loads and reads (R305, R306). -/
def dropItems (id : Nat) (s : State) : State :=
  let s := setHaul id (fun d => { d with shares := d.shares.map fun sh => { sh with out := [], sc := [], buf := [], preload := [], stallAt := none } }) s
  let mine : Nat × ReadFor → Bool := fun p => match p.2 with
    | .block i _ _ => i == id
    | .image i _ => i == id
    | .book l _ => s.haul.loads.any fun x => x.id == l && x.desc == id
    | _ => false
  let gone := s.eng.reads.filter mine
  let s := each gone (fun p => dropRead p.1) s
  { s with eng.reads := s.eng.reads.filter (!mine ·), haul.loads := s.haul.loads.filter (·.desc != id) }

/-- A descriptor is to end with a status: its first failure decides (R302, R305). -/
def failHaul (id status : Nat) (engine : Option Nat) (s : State) : State :=
  match findHaul s id with
  | none => s
  | some d =>
    if d.status.isSome ∨ d.posting then s else
    let s := if status = 0x50 then
        let s := count (haulCtr d.unit 0x150 0x68) s
        if bit (reg s 0x06800000) 1 then haulAttn d (haulCtr d.unit 0x150 0x68) s else s
      else s
    dropItems id (setHaul id (fun d => { d with status := some status, fail := engine }) s)

/-- A check of Table 10-8 has failed (R305). -/
def checkFail (id status engine : Nat) (s : State) : State :=
  match findHaul s id with
  | none => s
  | some d =>
    let s := if status = 0x50 then s else count (haulCtr d.unit 0x128 0x58) s
    failHaul id status (some engine) s

/-- Status with which a descriptor ends (R302). -/
def haulStatus (d : HDesc) : Nat := d.status.getD (if d.lost = [] then 0 else 0x41)

/-- Haul completion payload (Table 6-5, R302). -/
def haulPayload (d : HDesc) (status : Nat) : List Byte :=
  le 1 status ++ le 1 d.flags ++ le 1 (match d.fail with
    | some u => 0x80 + u
    | none => 0) ++ [0] ++ le 4 d.descId ++ le 4 d.ctx ++ zeros 4 ++ zeros 8 ++ le 8 d.done

/-- A descriptor ends: its completion, or word to its Route Card (R302, R332). -/
def finishHaul (d : HDesc) (s : State) : State :=
  if d.posting then s else
  let st := haulStatus d
  match d.card with
  | some (c, n, k) =>
    let e : StepEnd := { card := c, n, step := k, status := st, outBytes := d.outBytes, lower := d.lower, held := d.held }
    dropDesc d.id st { s with haul.ends := s.haul.ends ++ [e] }
  | none =>
    let s := setHaul d.id (fun d => { d with posting := true }) { s with haul.puts := s.haul.puts.filter (·.desc != d.id) }
    let doneCtr := haulCtr d.unit 0x100 0x40
    let s := ringPut d.comp d.ring
      { type := 3, status := st, payload := haulPayload d st, deadline := d.deadline, unit := 128 + d.unit
        dlCounter := haulCtr d.unit 0x120 0x50, doneCtr, tAt := 16, desc := d.id } s
    if d.notify then haulAttn d doneCtr s else s

/-- A descriptor is ended at once from outside its own work, without done words (R178, R310). -/
def stopHaul (status : Nat) (d : HDesc) (s : State) : State :=
  if d.posting then s else
  let s := dropItems d.id (setHaul d.id (fun d => { d with status := some (d.status.getD status) }) s)
  match findHaul s d.id with
  | some d => finishHaul d s
  | none => s

/-- Every descriptor of a Haul unit is ended at once. -/
def stopHaulUnit (u status : Nat) (s : State) : State := each (haulOn s u) (stopHaul status) s

/-! ### Sending (R299 to R302) -/

/-- A TAG that no PUT is out under: the Talik's choice. -/
def putTag (s : State) : Nat := (anyFree (fun g => s.haul.puts.any (·.tag == g)) (freeVal s) (2 ^ 24)).getD 0

/-- The PUT packet of a tracker entry. -/
def putPkt (s : State) (d : HDesc) (u : HPut) (rtx : Bool) (dst : Nat) : Kmt :=
  { opcode := 0x40, rtx, comp := d.comp, len := u.data.length, src := selfEp s, dst, tag := u.tag, space := d.win, addr := u.addr
    payload := u.data }

/-- Adds to the output bytes of a descriptor, its engine and its composition. -/
def outCount (d : HDesc) (engine n : Nat) (s : State) : State :=
  let s := setHaul d.id (fun d => { d with outBytes := d.outBytes + n }) s
  setComp d.comp (fun c => { c with haulBytes := satAdd (2 ^ 64 - 1) c.haulBytes n }) (hiddenCount d.comp engine 0x110 n s)

/-- Sends a PUT to every destination not lost, and tracks it. A group with a lost member is served by unicast. -/
def sendPut (d : HDesc) (share engine addr : Nat) (data : List Byte) (blks : List HBlk) (elems : Nat) (isDone : Bool) (s : State) : State :=
  let need := d.dests.filter (!d.lost.contains ·)
  if need = [] then s else
  let u : HPut := { tag := putTag s, desc := d.id, share, engine, addr, data, blocks := blks.map (·.k)
                    gens := (blks.map (·.gens)).flatten.eraseDups, elems, need, sentAt := s.clock.clk, isDone }
  let s := useFree { s with haul.puts := s.haul.puts ++ [u] }
  let group := d.mcast && d.lost.isEmpty
  let s := if isDone then s else outCount d engine (data.length * if group then 1 else need.length) s
  if group then sendGroup d.dest (inHaul engine) 3 (putPkt s d u false 0x3FFFF) none s
  else each need (fun ep s => sendDst (inHaul engine) 3 (putPkt s d u false ep) none s) s

/-- Tracker entries of an engine. -/
def tracked (s : State) (h : Nat) : Nat := (s.haul.puts.filter (·.engine == h)).length

/-- Blocks of a share whose bytes meet a part of the window. -/
def blksIn (sh : HShare) (at_ : Nat → Nat) (a n : Nat) : List HBlk :=
  sh.blks.filter fun b => decide (at_ b.lo < a + n) && decide (a < at_ b.hi)

/-- Sends the pages of a share that are complete, or all that is left at the share's end (R299). -/
def sendPages (id i : Nat) : Nat → State → State
  | 0, s => s
  | fuel + 1, s =>
    match findHaul s id with
    | none => s
    | some d => match d.shares[i]? with
      | none => s
      | some sh =>
        if d.held ∨ d.status.isSome ∨ d.posting ∨ 512 ≤ tracked s sh.engine then s else
        let final := sh.cur == sh.hi
        let room := 4096 - sh.outAt % 4096
        let sroom := 4096 - sh.scAt % 4096
        if room ≤ sh.out.length ∨ (final ∧ sh.out ≠ []) then
          let n := min room sh.out.length
          let b := fmtBits d.outFmt
          let elems := (sh.outAt + n - d.outOff) * 8 / b - (sh.outAt - d.outOff) * 8 / b
          let s := sendPut d i sh.engine sh.outAt (sh.out.take n) (blksIn sh (outAddr d) sh.outAt n) elems false s
          sendPages id i fuel (setHShare id i (fun sh => { sh with outAt := sh.outAt + n, out := sh.out.drop n }) s)
        else if sroom ≤ sh.sc.length ∨ (final ∧ sh.sc ≠ []) then
          let n := min sroom sh.sc.length
          let s := sendPut d i sh.engine sh.scAt (sh.sc.take n) (blksIn sh (scaleAddr d) sh.scAt n) 0 false s
          sendPages id i fuel (setHShare id i (fun sh => { sh with scAt := sh.scAt + n, sc := sh.sc.drop n }) s)
        else s

/-! ### Reads (R297, R308) -/

/-- Issues a read of ranges that lie in a card's window: no right is needed (R326). -/
def issueSegs (k space : Nat) (segs : List (Nat × Nat)) (crest : Nat) (s : State) : Nat × State :=
  let (id, s) := newId s
  let bs := (segs.map fun g => blocks4k g.1 (g.2 / 4096 + 2) g.2).flatten
  let bad := bs.findSome? fun b =>
    let st := genCheck s k 0xFFFF space b.1 b.2 2
    if st = 0 then none else some st
  let s := { s with reads := mset s.reads id { comp := k, pieces := [], refused := bad } }
  (id, if bad.isSome then s else bs.foldl (fun s b => issuePiece id k space b.1 b.2 3 crest s) s)

/-- Offsets in the window space of `n` bytes at a place of a Crest's ring (R326). -/
def ringSegs (raw : List Byte) (crest place n : Nat) : List (Nat × Nat) :=
  let base := rcWinAddr raw + pageSize * sum ((List.range crest).map (rcWin raw))
  let size := max 1 (rcWin raw crest * pageSize)
  let a := place % size
  if a + n ≤ size then [(base + a, n)] else [(base + a, size - a), (base, n - (size - a))]

/-- Issues the read of a block of a share: from the card's window, or from its source. -/
def readBlock (d : HDesc) (i : Nat) (sh : HShare) (k : Nat) (s : State) : State :=
  let crest := engineCrest sh.engine
  match sh.win, d.card.bind (fun c => mget s.cards c.1) with
  | some place, some c =>
    let (id, s) := issueSegs d.comp (rcWinSpace c.raw) (ringSegs c.raw crest (place + (k - sh.lo) * d.slot) d.slot) crest s
    { s with eng.reads := mset s.eng.reads id (.block d.id i k) }
  | _, _ =>
    let (id, s) := issueRead d.comp d.job d.srcSpace (d.srcAddr + k * d.slot) d.slot 3 crest s
    setHaul d.id (fun d => { d with lower := d.lower + if d.card.isSome then d.slot else 0 })
      { s with eng.reads := mset s.eng.reads id (.block d.id i k) }

/-- Issues the read of a chunk of a descriptor's image. -/
def readChunk (d : HDesc) (engine k : Nat) (what : ReadFor) (s : State) : State :=
  let (id, s) := issueRead d.comp d.job d.cbSpace (d.cbAddr + 4096 * k) 4096 3 (engineCrest engine) s
  { s with eng.reads := mset s.eng.reads id what }

/-- Bytes of an engine's input buffer that are filled or being read into (Table 10-1). -/
def bufUse (s : State) (h : Nat) : Nat :=
  sum (s.haul.descs.map fun d => sum ((d.shares.filter (·.engine == h)).map fun sh =>
    if d.status.isSome then 0 else (sh.next - sh.cur) * d.slot))

/-- The running share of an engine whose next block is read next: the one that has read the fewest (R298). -/
def nextRead (s : State) (h : Nat) : Option (HDesc × Nat × HShare) :=
  let c := (s.haul.descs.filter fun d => haulRuns s d && d.status.isNone && !d.posting).map fun d =>
    (((List.range d.shares.length).zip d.shares).filter fun p => p.2.engine == h && decide (p.2.next < p.2.hi) &&
      decide (bufUse s h + d.slot ≤ 65536)).map fun p => (d, p.1, p.2)
  c.flatten.foldl (fun b x => match b with
    | none => some x
    | some y => if x.2.2.next - x.2.2.lo < y.2.2.next - y.2.2.lo then some x else some y) none

/-- Reads ahead while the input buffer has room. -/
def readAhead (h : Nat) : Nat → State → State
  | 0, s => s
  | fuel + 1, s =>
    match nextRead s h with
    | none => s
    | some (d, i, sh) =>
      readAhead h fuel (setHShare d.id i (fun sh => { sh with next := sh.next + 1 }) (readBlock d i sh sh.next s))

/-! ### Codebook cache (R308) -/

/-- Books of an image that the block at the head of a share needs. -/
def headBooks (s : State) (d : HDesc) (sh : HShare) : List Nat :=
  match mget sh.buf sh.cur with
  | none => []
  | some b =>
    match openBlock s d.comp d.nsalt (streamConf s d.comp d.srcSpace d.srcAddr) false sh.cur d.slot b with
    | .ok body _ _ => blockBooks body
    | _ => []

/-- Books that the current blocks of an engine's running descriptors need: composition, image, index. -/
def neededBooks (s : State) (h : Nat) : List (Nat × Nat × Nat) :=
  ((s.haul.descs.filter fun d => haulRuns s d && d.status.isNone).map fun d =>
    ((d.shares.filter (·.engine == h)).map fun sh =>
      match sh.image with
      | some (img, _) => (headBooks s d sh).map fun i => (d.comp, imgId img, i)
      | none => []).flatten).flatten

/-- Bytes of the cache in use or being loaded. -/
def cacheUse (s : State) (h : Nat) : Nat :=
  sum ((s.haul.books.filter (·.engine == h)).map fun b => bookLen b.ent) +
  sum ((s.haul.loads.filter (·.engine == h)).map fun l => bookLen l.ent)

/-- Evicts the least recently used codebooks that no running descriptor's current block needs, until `n` bytes fit. -/
def evictFor (h n : Nat) (keep : List (Nat × Nat × Nat)) : Nat → State → State
  | 0, s => s
  | fuel + 1, s =>
    if cacheUse s h + n ≤ 2097152 then s else
    let c := s.haul.books.filter fun b => b.engine == h && !keep.contains (b.comp, b.image, b.index)
    match c.foldl (fun (m : Option CBook) b => match m with
      | none => some b
      | some y => if b.used < y.used then some b else some y) none with
    | none => s
    | some b => evictFor h n keep fuel { s with haul.books := s.haul.books.filter (· != b) }

/-- Starts the load of one codebook: its chunks but chunk 0, which is at hand. -/
def startLoad (d : HDesc) (i : Nat) (sh : HShare) (img : List Byte) (gen idx : Nat) (s : State) : State :=
  let e := imgEnt img idx
  let (id, s) := newId s
  let cs := bookChunks e
  let l : HLoad := { id, engine := sh.engine, desc := d.id, share := i, comp := d.comp, image := imgId img, index := idx, ent := e
                     need := cs.filter (· != 0), got := if cs.contains 0 then [(0, img)] else [], gens := if gen = 0 then [] else [gen] }
  each l.need (fun k => readChunk d sh.engine k (.book id k)) { s with haul.loads := s.haul.loads ++ [l] }

/-- Books of a list that are neither resident nor being loaded. -/
def absent (s : State) (h k image : Nat) (is : List Nat) : List Nat :=
  is.filter fun i => (findBook s h k image i).isNone &&
    !(s.haul.loads.any fun l => l.engine == h && l.comp == k && l.image == image && l.index == i)

/-- Starts the loads of books together, if they fit beside what running descriptors need. -/
def loadBooks (d : HDesc) (i : Nat) (sh : HShare) (is : List Nat) (s : State) : State × Bool :=
  match sh.image with
  | none => (s, false)
  | some (img, gen) =>
    let want := absent s sh.engine d.comp (imgId img) (is.filter fun x => decide (x < imgN img))
    let n := sum (want.map fun x => bookLen (imgEnt img x))
    let keep := neededBooks s sh.engine ++ is.map fun x => (d.comp, imgId img, x)
    let free := sum ((s.haul.books.filter fun b => b.engine == sh.engine && !keep.contains (b.comp, b.image, b.index)).map
      fun b => bookLen b.ent)
    if cacheUse s sh.engine + n ≤ 2097152 + free then
      (each want (startLoad d i sh img gen) (evictFor sh.engine n keep s.haul.books.length s), true)
    else (s, false)

/-- Asks for chunk 0 of a share's image, and starts the preload of CBL once it is in (R308). -/
def askImage (id i : Nat) (s : State) : State :=
  match findHaul s id with
  | none => s
  | some d => match d.shares[i]? with
    | none => s
    | some sh =>
      if !d.expand ∨ d.status.isSome ∨ d.posting ∨ sh.lo = sh.hi then s
      else if !sh.asked then readChunk d sh.engine 0 (.image id i) (setHShare id i (fun sh => { sh with asked := true }) s)
      else match sh.image with
        | none => s
        | some _ =>
          if sh.preload = [] then s else
          let (s, ok) := loadBooks d i sh sh.preload s
          if ok then setHShare id i (fun sh => { sh with preload := [] }) s else s

/-! ### Expansion (R289, R290, R298, R305) -/

/-- Bytes in an engine's smoothing queue. -/
def queued (s : State) (h : Nat) : Nat :=
  sum (s.haul.descs.map fun d => sum ((d.shares.filter (·.engine == h)).map fun sh => sh.out.length + sh.sc.length))

/-- COPY: a checked block is written to its place, as writes of at most one 4 KiB block each (R309). -/
def copyBlock (d : HDesc) (engine k : Nat) (b : List Byte) (s : State) : State :=
  (blocks4k (d.outOff + k * d.slot) (d.slot / 4096 + 2) d.slot).foldl (fun s g =>
    let st := genCheck s d.comp d.job d.win g.1 g.2 1
    let (id, s) := newId s
    let data := slice b (g.1 - (d.outOff + k * d.slot)) g.2
    let rd : URead := { comp := d.comp, pieces := [{ hbm := false, addr := g.1, len := g.2 }], refused := if st = 0 then none else some st }
    let s := { s with reads := mset s.reads id rd, eng.reads := mset s.eng.reads id (.copy d.id g.2) }
    if st ≠ 0 then s else
    match extAt s d.win g.1 with
    | none => s
    | some (x, e) =>
      let p : Kmt := { opcode := 0x02, comp := d.comp, len := g.2, job := d.job, src := selfEp s, space := d.win, addr := g.1, payload := data }
      match memDirect e x p 4 (engineCrest engine) [] (.unit id) s with
      | some s =>
        -- a tray write answers under its TAG
        let tag := if e.hbm then 0 else ((s.xlt.trays.find? (·.why == .unit id)).map (·.tag)).getD 0
        { s with reads := mmod s.reads id fun r => { r with pieces := r.pieces.map fun q => { q with tag } } }
      | none => tierFault 2 d.comp d.win (count 0x03000450 (fillPiece id 0 0x21 [] s))) s

/-- Counts a miss where the expander meets one (R308). -/
def missBooks (d : HDesc) (i : Nat) (sh : HShare) (is : List Nat) (s : State) : State :=
  let s := if sh.stallAt.isSome then s else
    hiddenCount d.comp sh.engine 0x138 1 (setHShare d.id i (fun sh => { sh with stallAt := some s.clock.clk }) s)
  (loadBooks d i sh is s).1

/-- The expander goes on: cycles of the stall are counted (R308; CLK_HAUL is 1 GHz). -/
def endStall (d : HDesc) (i : Nat) (sh : HShare) (s : State) : State :=
  match sh.stallAt with
  | none => s
  | some t => hiddenCount d.comp sh.engine 0x140 (s.clock.clk - t) (setHShare d.id i (fun sh => { sh with stallAt := none }) s)

/-- Elements expanded by all shares of a descriptor. -/
def elemsDone (d : HDesc) : Nat := sum (d.shares.map fun sh => sum (sh.blks.map fun b => b.hi - b.lo))

/-- A block whose codebooks are resident is expanded into the smoothing queue, where it has room. -/
def expandInto (d : HDesc) (i : Nat) (sh : HShare) (img : List Byte × Nat) (b : List Byte) (gen : Nat) (last : Bool) (s : State) : State :=
  let bs := blockBooks b
  let found := bs.filterMap (findBook s sh.engine d.comp (imgId img.1))
  if found.length < bs.length then missBooks d i sh bs s else
  let c2 := if innW2 b = 0 then none else findBook s sh.engine d.comp (imgId img.1) (innCb2 b)
  let (data, sc, fl) := packOut d.outFmt (expandBlock (found.headD { engine := 0, comp := 0, image := 0, index := 0, ent := [], bytes := [], gens := [] }) c2 b)
  if (if d.held then 131072 else 262144) < queued s sh.engine + data.length + sc.length then endStall d i sh s else
  let n := innVec b * innDim b
  let lo := innElem b
  let early := last && decide (sh.cur + 1 < d.nblk)
  let atEnd := d.shares.all fun x => if x.engine = sh.engine then x.cur + 1 == x.hi else x.cur == x.hi
  if early ∨ (atEnd ∧ elemsDone d + n ≠ d.elems) then checkFail d.id 0x23 sh.engine s else
  let gens := ((if gen = 0 then [] else [gen]) ++ (found.map (·.gens)).flatten).eraseDups
  let blk : HBlk := { k := sh.cur, lo, hi := lo + n, gens }
  let s := endStall d i sh s
  let s := { s with haul.tick := s.haul.tick + 1
                    haul.books := modIf (found.contains ·) (fun c => { c with used := s.haul.tick + 1 }) s.haul.books }
  let s := setHaul d.id (fun d => { d with flags := d.flags ||| fl }) s
  setHShare d.id i (fun x => { x with
    cur := x.cur + 1, buf := mdel x.buf x.cur, elem := some (lo + n), blks := x.blks ++ [blk]
    outAt := if x.blks = [] then outAddr d lo else x.outAt, out := x.out ++ data
    scAt := if x.blks = [] then scaleAddr d lo else x.scAt, sc := x.sc ++ sc }) s

/-- A share takes its next block, if it can (R298, Table 10-8). -/
def stepHShare (id i : Nat) (s : State) : State :=
  match findHaul s id with
  | none => s
  | some d => match d.shares[i]? with
    | none => s
    | some sh =>
      if d.status.isSome ∨ d.posting ∨ !haulRuns s d then s else
      match mget sh.buf sh.cur with
      | none => s
      | some b =>
        let confd := streamConf s d.comp d.srcSpace d.srcAddr
        let again := fun s =>
          if sh.reread.contains sh.cur then checkFail id 0x24 sh.engine s
          else count (haulCtr sh.engine 0x130 0) (readBlock d i sh sh.cur
            (setHShare id i (fun x => { x with reread := x.reread ++ [x.cur], buf := mdel x.buf x.cur }) s))
        if !d.expand then
          let r := envRow false sh.cur d.slot b
          if r = 1 then again s
          else if r ≠ 0 then checkFail id r sh.engine s
          else copyBlock d sh.engine sh.cur b (setHShare id i (fun x => { x with cur := x.cur + 1, buf := mdel x.buf x.cur }) s)
        else match openBlock s d.comp d.nsalt confd false sh.cur d.slot b with
          | .crc => again s
          | .fail st => checkFail id st sh.engine s
          | .ok body gen last =>
            match sh.image with
            | none => s
            | some img =>
              let r := innerRow d sh img.1 last (gen != 0) body
              if r ≠ 0 then checkFail id r sh.engine s else expandInto d i sh img body gen last s

/-- Every pair of a descriptor and a share. -/
def haulPairs (s : State) : List (Nat × Nat) :=
  (s.haul.descs.map fun d => (List.range d.shares.length).map fun i => (d.id, i)).flatten

/-- One block of each running share in turn, and the pages it completes. -/
def haulRound (s : State) : State :=
  each (haulPairs s) (fun p s => sendPages p.1 p.2 128 (stepHShare p.1 p.2 s)) s

def haulRounds : Nat → State → State
  | 0, s => s
  | n + 1, s => haulRounds n (haulRound s)

/-- Has a descriptor run out of blocks, with every output sent and every COPY write ended? -/
def haulDry (s : State) (d : HDesc) : Bool :=
  (d.shares.all fun sh => sh.cur == sh.hi && sh.out.isEmpty && sh.sc.isEmpty) &&
  !(s.eng.reads.any fun p => match p.2 with
    | .copy i _ => i == d.id
    | _ => false)

/-- A descriptor ends once it has run out or failed and its PUTs are answered or lost: first its done words (R302). -/
def endHaul (id : Nat) (s : State) : State :=
  match findHaul s id with
  | none => s
  | some d =>
    if d.posting ∨ d.held ∨ (d.status.isNone ∧ !haulDry s d) ∨ s.haul.puts.any (·.desc == id) then s
    else if d.expand && d.doneEn && !d.doneSent && compLive s d.comp then
      let s := setHaul id (fun d => { d with doneSent := true }) s
      let e := (d.shares.headD { engine := 0, lo := 0, hi := 0, next := 0, cur := 0 }).engine
      let s := sendPut d 0 e d.doneOff (le 4 d.descId ++ le 1 (haulStatus d) ++ zeros 3) [] 0 true s
      if s.haul.puts.any (·.desc == id) then s else finishHaul d s
    else finishHaul d s

/-- Everything in the Haul engines that can go on does. -/
def settleHaul (s : State) : State :=
  let n := sum (s.haul.descs.map fun d => sum (d.shares.map fun sh => sh.buf.length))
  let s := haulRounds (n + 1) s
  let s := each (s.haul.descs.map (·.id)) endHaul s
  let s := each (haulPairs s) (fun p => askImage p.1 p.2) s
  settleQuiesce (each ((s.haul.descs.map fun d => d.shares.map (·.engine)).flatten.eraseDups) (fun h => readAhead h 1024) s)

/-! ### Acceptance -/

/-- Makes a descriptor active (R298). -/
def acceptHaul (d : HDesc) (s : State) : State :=
  { s with xlt.nextId := s.xlt.nextId + 1, haul.descs := s.haul.descs ++ [d] }

/-- HAUL_POST (R304). -/
def haulPostBody (c : CmdRec) (s : State) : CmdRes × State :=
  let r := haulRow s c.params false
  if r.status ≠ 0 then (.done r.status [] r.load, rowCount r s) else (okRes, acceptHaul (haulDesc s c.params none false fun _ => none) s)

/-! ### Blocks and chunks that arrive -/

/-- A stored block of a share arrives in the input buffer; its codebooks are asked for (R308). -/
def blockCame (d : HDesc) (i : Nat) (sh : HShare) (k : Nat) (res : Nat × List Byte) (s : State) : State :=
  let s := hiddenCount d.comp sh.engine 0x108 d.slot s
  if res.1 ≠ 0 then checkFail d.id res.1 sh.engine s else
  let s := setHShare d.id i (fun x => { x with buf := mset x.buf k res.2 }) s
  match openBlock s d.comp d.nsalt (streamConf s d.comp d.srcSpace d.srcAddr) false k d.slot res.2, sh.image with
  | .ok body _ _, some _ => if d.expand ∧ haulRuns s d then (loadBooks d i sh (blockBooks body) s).1 else s
  | _, _ => s

/-- Chunk 0 of an image arrives (Table 10-8). -/
def imageCame (d : HDesc) (i : Nat) (sh : HShare) (res : Nat × List Byte) (s : State) : State :=
  let s := hiddenCount d.comp sh.engine 0x108 4096 s
  if res.1 ≠ 0 then checkFail d.id res.1 sh.engine s else
  match openBlock s d.comp d.nsalt (streamConf s d.comp d.cbSpace d.cbAddr) true 0 4096 res.2 with
  | .crc =>
    if sh.again then checkFail d.id 0x24 sh.engine s
    else count (haulCtr sh.engine 0x130 0) (readChunk d sh.engine 0 (.image d.id i) (setHShare d.id i (fun x => { x with again := true }) s))
  | .fail st => checkFail d.id st sh.engine s
  | .ok body gen _ =>
    let img := body.take 4032
    if imgBad img then checkFail d.id 0x22 sh.engine s
    else if d.cbl.any (fun x => decide (imgN img ≤ x)) then checkFail d.id 0x22 sh.engine s
    else setHShare d.id i (fun x => { x with image := some (img, gen) }) s

/-- A chunk of a codebook arrives. -/
def chunkCame (d : HDesc) (l : HLoad) (k : Nat) (res : Nat × List Byte) (s : State) : State :=
  let s := hiddenCount d.comp l.engine 0x108 4096 s
  if res.1 ≠ 0 then checkFail d.id res.1 l.engine s else
  let put := fun (f : HLoad → HLoad) (s : State) => { s with haul.loads := modIf (·.id == l.id) f s.haul.loads }
  match openBlock s d.comp d.nsalt (streamConf s d.comp d.cbSpace d.cbAddr) true k 4096 res.2 with
  | .crc =>
    if l.again.contains k then checkFail d.id 0x24 l.engine s
    else count (haulCtr l.engine 0x130 0) (readChunk d l.engine k (.book l.id k) (put (fun l => { l with again := l.again ++ [k] }) s))
  | .fail st => checkFail d.id st l.engine s
  | .ok body gen _ => put (fun l => { l with
      need := l.need.filter (· != k), got := mset l.got k (body.take 4032)
      gens := if gen = 0 ∨ l.gens.contains gen then l.gens else l.gens ++ [gen] }) s

/-- A page is sent again by unicast with RTX = 1 (R301). -/
def resendPut (u : HPut) (s : State) : State :=
  match findHaul s u.desc with
  | none => s
  | some d => each u.need (fun ep s => sendDst (inHaul u.engine) 3 (putPkt s d u true ep) none (count (haulCtr d.unit 0x148 0x60) s)) s

/-- A block of a page that is expanded again arrives: it is checked as before, and the page goes once all are in (R301). -/
def redoCame (tag k : Nat) (again : Bool) (res : Nat × List Byte) (s : State) : State :=
  match s.haul.puts.find? (·.tag == tag) with
  | none => s
  | some u => match findHaul s u.desc with
    | none => s
    | some d => match d.shares[u.share]? with
      | none => s
      | some sh =>
        let s := hiddenCount d.comp u.engine 0x108 d.slot s
        let lose := fun st s => checkFail d.id st u.engine { s with haul.puts := s.haul.puts.filter (·.desc != d.id) }
        if res.1 ≠ 0 then lose res.1 s else
        match openBlock s d.comp d.nsalt (streamConf s d.comp d.srcSpace d.srcAddr) false k d.slot res.2 with
        | .fail st => lose st s
        | .crc =>
          if again then lose 0x24 s else
          let (id, s) := issueRead d.comp d.job d.srcSpace (d.srcAddr + k * d.slot) d.slot 3 (engineCrest sh.engine) s
          count (haulCtr u.engine 0x130 0) { s with eng.reads := mset s.eng.reads id (.redo tag k true) }
        | .ok _ _ _ =>
          let u' := { u with redo := u.redo.filter (· != k) }
          let s := { s with haul.puts := modIf (·.tag == tag) (fun _ => u') s.haul.puts }
          if u'.redo = [] then resendPut u' s else s

/-- A COPY write that has ended is taken off its descriptor (R309). -/
def copyEnded (id desc bytes : Nat) (s : State) : State :=
  match readDone s id with
  | none => s
  | some (st, _) =>
    let s := { s with reads := mdel s.reads id, eng.reads := mdel s.eng.reads id }
    match findHaul s desc with
    | none => s
    | some d =>
      if st = 0 then setHaul desc (fun d => { d with done := d.done + bytes }) s
      else failHaul desc st ((d.shares.head?).map (·.engine)) s

/-- COPY writes that have their answers are taken off. -/
def settleCopies (s : State) : State :=
  each s.eng.reads (fun p s => match p.2 with
    | .copy d n => copyEnded p.1 d n s
    | _ => s) s

/-- BLOCK_READ_RESPONSE (R305, R308). -/
def blockReadResponse (id : Nat) (s : State) : State :=
  if !running s then s else
  match readDone s id, mget s.eng.reads id with
  | some res, some what =>
    let take := fun s => { dropRead id s with eng.reads := mdel s.eng.reads id }
    match what with
    | .block d i k =>
      match findHaul s d with
      | none => take s
      | some x => match x.shares[i]? with
        | none => take s
        | some sh => if x.status.isSome then take s else blockCame x i sh k res (take s)
    | .image d i =>
      match findHaul s d with
      | none => take s
      | some x => match x.shares[i]? with
        | none => take s
        | some sh => if x.status.isSome then take s else imageCame x i sh res (take s)
    | .book l k =>
      match s.haul.loads.find? (·.id == l) with
      | none => take s
      | some y => match findHaul s y.desc with
        | none => take s
        | some x => chunkCame x y k res (take s)
    | .redo tag k again => redoCame tag k again res (take s)
    | _ => s
  | _, _ => s

/-- CODEBOOK_LOAD_DONE: every chunk is in, and the codebook is resident (R308). -/
def codebookLoadDone (id : Nat) (s : State) : State :=
  match s.haul.loads.find? (·.id == id) with
  | none => s
  | some l =>
    if !running s ∨ l.need ≠ [] then s else
    let a := entOff l.ent / 4032 * 4032
    let bytes := slice (l.got.map (·.2)).flatten (entOff l.ent - a) (bookLen l.ent)
    let b : CBook := { engine := l.engine, comp := l.comp, image := l.image, index := l.index, ent := l.ent, bytes, gens := l.gens
                       used := s.haul.tick + 1 }
    { s with haul.loads := s.haul.loads.filter (·.id != id), haul.books := s.haul.books ++ [b], haul.tick := s.haul.tick + 1 }

/-! ### Answers to PUTs (R301) -/

/-- Takes an endpoint off a tracker entry; an entry that waits for nobody goes, and counts its elements unless its last
destination was lost. -/
def offPut (tag ep : Nat) (s : State) : State :=
  match s.haul.puts.find? (·.tag == tag) with
  | none => s
  | some u =>
    let u' := { u with need := u.need.filter (· != ep) }
    if u'.need ≠ [] then { s with haul.puts := modIf (·.tag == tag) (fun _ => u') s.haul.puts } else
    let s := { s with haul.puts := s.haul.puts.filter (·.tag != tag) }
    setHaul u.desc (fun d => { d with done := if d.dests.all (d.lost.contains ·) then d.done else d.done + u.elems }) s

/-- A destination is lost to a descriptor (R301). -/
def loseDest (id ep : Nat) (s : State) : State :=
  match findHaul s id with
  | none => s
  | some d =>
    if d.lost.contains ep then s else
    let s := count 0x06800400 (setHaul id (fun d => { d with lost := d.lost ++ [ep] }) s)
    let s := if bit (reg s 0x06800000) 2 then haulAttn d 0x06800400 s else s
    each ((s.haul.puts.filter fun u => u.desc == id && u.need.contains ep).map (·.tag)) (fun t => offPut t ep) s

/-- A destination answers a PUT (R301). -/
def putAnswered (p : Kmt) (s : State) : State :=
  match s.haul.puts.find? fun u => u.tag == p.tag && u.need.contains p.src with
  | none => s
  | some u => if p.status = 0 then offPut u.tag p.src s else loseDest u.desc p.src s

/-- First timeout of a PUT in ns. -/
def putTmoNs (s : State) : Nat := bits (reg s 0x06800000) 31 24 * 1000

/-- PUT_TMO_EXPIRY (R301): the page's blocks are read and expanded again, or its silent destinations are lost. -/
def putTmoExpiry (tag : Nat) (s : State) : State :=
  match s.haul.puts.find? (·.tag == tag) with
  | none => s
  | some u => match findHaul s u.desc with
    | none => s
    | some d =>
      if !running s then s else
      let s := atLeast (u.sentAt + putTmoNs s * 2 ^ u.tries) s
      if bits (reg s 0x06800000) 23 20 ≤ u.tries then each u.need (loseDest d.id) s else
      let u' := { u with tries := u.tries + 1, sentAt := s.clock.clk, redo := if u.redo = [] then u.blocks else u.redo }
      let s := { s with haul.puts := modIf (·.tag == tag) (fun _ => u') s.haul.puts }
      if u'.redo = [] then resendPut u' s
      else if u.redo ≠ [] then s
      else each u'.redo (fun k s =>
        let (id, s) := issueRead d.comp d.job d.srcSpace (d.srcAddr + k * d.slot) d.slot 3 (engineCrest u.engine) s
        { s with eng.reads := mset s.eng.reads id (.redo tag k false) }) s

/-! ### Deadlines, keys, resets and errors -/

/-- A descriptor's deadline has passed (R306): nothing more is sent but its done word. -/
def haulExpire (d : HDesc) (s : State) : State :=
  if d.status.isSome ∨ d.posting then s else
  let s := dlMiss (128 + d.unit) (haulCtr d.unit 0x120 0x50) d.comp s
  failHaul d.id 0x40 none { s with haul.puts := s.haul.puts.filter (·.desc != d.id) }

/-- HAUL_DEADLINE_CHECK (R306). -/
def haulDeadlineCheck (u : Nat) (s : State) : State :=
  if !running s ∨ s.dev.devState = .seconding then s else
  each ((haulOn s u).filter fun d => d.deadline != 0 && decide (d.deadline < s.clock.tb)) haulExpire s

/-- Does a descriptor hold an item under a key generation (R294)? -/
def holdsGen (s : State) (d : HDesc) (g : Nat) : Bool :=
  s.haul.loads.any (fun l => l.desc == d.id && l.gens.contains g) ||
  d.shares.any fun sh => (sh.image.any (·.2 == g)) || sh.buf.any (fun b => envEnc b.2 && envKgen b.2 == g) ||
    sh.blks.any fun b => b.gens.contains g && (decide (sh.outAt < outAddr d b.hi) || decide (sh.scAt < scaleAddr d b.hi) && fmtMx d.outFmt)

/-- A weight key generation of a composition is retired (R294, R388): every item under it is zeroed and its descriptors end. -/
def retireGen (k g : Nat) (s : State) : State :=
  let ds := s.haul.descs.filter fun d => d.comp == k && d.status.isNone && !d.posting && holdsGen s d g
  let s := { s with sec.keys := s.sec.keys.filter fun x => !(x.1 == k && x.2.1 == g)
                    haul.books := s.haul.books.filter fun b => !(b.comp == k && b.gens.contains g) }
  each ds (fun d s => failHaul d.id 0x50 none { s with haul.puts := s.haul.puts.filter (·.desc != d.id) }) s

/-- HAUL_CTL.RESET and HAUL_ROPE_CTL.RESET (R310): the outermost Haul Rope is reset. -/
def resetHaulUnit (u : Nat) (s : State) : State :=
  let top := topOf s (128 + u)
  if !unitThere s top then s else beginReset top (stopHaulUnit (top - 128) 0x41 s)

/-- HAUL_UE: FAILED is set, and every descriptor with a share on the engine ends with INTERNAL_FAULT (CLASS 0x04). -/
def haulUe (h : Nat) (s : State) : State :=
  if !running s ∨ 32 ≤ h then s else
  let ds := (haulOn s (topOf s (128 + h) - 128)).filter fun d => d.shares.any (·.engine == h)
  each ds (fun d => failHaul d.id 0x60 (some h)) (failTile (128 + h) s)

/-- ROLE_DRAIN_TIMEOUT of a Haul unit (R295). -/
def haulDrainTimeout (u : Nat) (s : State) : State :=
  match (eunit s (128 + u)).change with
  | some { status, drainAt := some t, .. } => if running s then stopHaulUnit u status (atLeast t s) else s
  | _ => s

end Sys2Proof.Machine
end

