-- ==== Sys2Proof/Machine/Tiers.lean ====
section
/-! DEFINITION. Memory tiers and Route Cards (chapter 11): loading, the window and its fills, arming, gates, step outcomes and
pass records. -/

namespace Sys2Proof.Machine

/-- A loaded card. -/
def cardAt (s : State) (n : Nat) : Option Card := mget s.cards n

/-- Changes a card. -/
def setCard (n : Nat) (f : Card → Card) (s : State) : State := { s with cards := mmod s.cards n f }

/-- Counts at a per-card counter, but not for a CONFIDENTIAL composition (R336). -/
def rcCount (k n off m : Nat) (s : State) : State := if conf s k then s else countN (0x07002000 + 64 * n + off) m s

/-! ### Shares and their places in the window (R326) -/

/-- Shares of a layer in step order: step, share, engine, blocks, bytes. -/
def layerShares (raw : List Byte) (split : List (List ShareSt)) (l : Nat) : List (Nat × Nat × ShareSt × Nat) :=
  ((layerList raw l).map fun k =>
    let sp := split.getD k []
    ((List.range sp.length).zip sp).map fun p => (k, p.1, p.2, (p.2.hi - p.2.lo) * fld (stepRaw raw k) 28 2)).flatten

/-- Bytes of a layer on a Crest. -/
def layerBytes (raw : List Byte) (split : List (List ShareSt)) (l c : Nat) : Nat :=
  sum (((layerShares raw split l).filter fun x => engineCrest x.2.2.1.tile == c).map (·.2.2.2))

/-- Place of a share within its layer on its Crest: shares lie back to back. -/
def shareOffset (raw : List Byte) (split : List (List ShareSt)) (l step share : Nat) : Nat :=
  let xs := layerShares raw split l
  let c := ((xs.find? fun x => x.1 == step && x.2.1 == share).map fun x => engineCrest x.2.2.1.tile).getD 0
  sum (((xs.takeWhile fun x => !(x.1 == step && x.2.1 == share)).filter fun x => engineCrest x.2.2.1.tile == c).map (·.2.2.2))

/-- Layer of a pass at a position in pass order. -/
def layerOf (c : Card) (n : Nat) : Nat := n % max 1 (rcLayers c.raw)

/-- Key of a layer's shares in the window: the layer for a resident card, its position in pass order for a rolling one. -/
def winKey (c : Card) (n : Nat) : Nat := if c.resident then layerOf c n else n

/-- Place of a share in its Crest's ring: none while a rolling card has given its layer no space. -/
def sharePlace (c : Card) (key step share : Nat) : Option Nat :=
  let l := layerOf c key
  let crest := (((c.split.getD step [])[share]?).map fun x => engineCrest x.tile).getD 0
  let base := if c.resident then some (sum ((List.range l).map fun x => layerBytes c.raw c.split x crest))
    else (c.placed.find? (·.n == key)).map (·.at_.getD crest 0)
  base.map (· + shareOffset c.raw c.split l step share)

/-- Shares of a layer that hold blocks, by key. -/
def keyShares (c : Card) (key : Nat) : List (Nat × Nat × Nat) :=
  ((layerShares c.raw c.split (layerOf c key)).filter fun x => x.2.2.2 != 0).map fun x => (key, x.1, x.2.1)

/-! ### Window fills (R327, R328) -/

/-- Depth d of a rolling card (R328). -/
def cardDepth (s : State) (c : Card) : Nat :=
  let cfg := reg s 0x07000004
  if bit cfg 0 then bits cfg 11 8
  else match c.lastF, c.lastE with
    | some f, some e => min (bits cfg 19 16) (ceilDiv f (max 1 e) + 1)
    | _, _ => 2

/-- Issues the read of a block of a fill from the source copy, under the step's job. -/
def readFill (n : Nat) (c : Card) (f : CFill) (s : State) : State :=
  let raw := stepRaw c.raw f.step
  let crest := (((c.split.getD f.step [])[f.share]?).map fun x => engineCrest x.tile).getD 0
  let (id, s) := issueRead c.comp (fld raw 6 2) (fld raw 30 2 % 1024) (fld raw 32 8 % 2 ^ 46 + f.next * fld raw 28 2) (fld raw 28 2) 3 crest s
  { s with eng.reads := mset s.eng.reads id (.fill n f.n f.step f.share f.next) }

/-- Starts the fill of the next layer, one layer at a time. -/
def startFill (n : Nat) (s : State) : State :=
  match cardAt s n with
  | none => s
  | some c =>
    if c.fillNow.isSome ∨ c.todo = [] ∨ !(c.st == 1 || c.st == 3) then s else
    let key := (c.todo.headD (0, 0, 0)).1
    let fs := (c.todo.filter (·.1 == key)).map fun t =>
      ({ n := key, step := t.2.1, share := t.2.2, next := (((c.split.getD t.2.1 [])[t.2.2]?).map (·.lo)).getD 0 } : CFill)
    let s := setCard n (fun c => { c with todo := c.todo.filter (·.1 != key), fills := fs, fillNow := some key, fillAt := s.clock.clk }) s
    each fs (readFill n c) s

/-- A fill of a share has ended; the layer's fill ends with its last one. -/
def endFill (n : Nat) (f : CFill) (s : State) : State :=
  setCard n (fun c =>
    let fs := c.fills.filter fun g => !(g.n == f.n && g.step == f.step && g.share == f.share)
    let ended := decide (fs = [])
    let lastF := if ended then some (s.clock.clk - c.fillAt) else c.lastF
    { c with fills := fs, fillNow := if ended then none else c.fillNow, lastF }) s

/-- Ring bytes of a Crest that placed layers hold. -/
def ringUsed (c : Card) (crest : Nat) : Nat :=
  let top := c.top.getD crest 0
  top - (c.placed.map (·.at_.getD crest 0)).foldl min top

/-- Does a layer fit beside what the rings hold? -/
def layerFits (c : Card) (l : Nat) : Bool :=
  (List.range 4).all fun x => decide (ringUsed c x + layerBytes c.raw c.split l x ≤ rcWin c.raw x * pageSize)

/-- Gives layers of a rolling card their space, up to a limit, while the rings have it (R328). -/
def placeAhead (lim : Nat) : Nat → Card → Card
  | 0, c => c
  | fuel + 1, c =>
    let n := max c.fillN c.nextN
    if n < lim ∧ layerFits c (layerOf c n) then
      let top := (List.range 4).map fun x => c.top.getD x 0 + layerBytes c.raw c.split (layerOf c n) x
      placeAhead lim fuel { c with placed := c.placed ++ [{ n, at_ := c.top }], top, fillN := n + 1, todo := c.todo ++ keyShares c n }
    else c

/-- A running rolling card fills up to d layers ahead of the layer it arms next; d is decided at each arming (R328). -/
def prefetch (n : Nat) (s : State) : State :=
  match cardAt s n with
  | none => s
  | some c =>
    if c.st ≠ 1 then s else
    let lim := c.nextN + (if c.nextN = 0 then cardDepth s c else c.depth) + 1
    let lim := if c.passes = 0 then lim else min lim (c.passes * rcLayers c.raw)
    startFill n (if c.resident then s else setCard n (placeAhead lim 16) s)

/-- Writes a stored block into its place of the window (R327). -/
def writeWindow (c : Card) (crest place : Nat) (b : List Byte) (s : State) : State :=
  let segs := ringSegs c.raw crest place b.length
  let go := segs.foldl (fun (acc : List Byte × State) g =>
    let s := match extAt acc.2 (rcWinSpace c.raw) g.1 with
      | some (_, e) => hbmMoved c.comp (extAddr e g.1) g.2 (hbmWrite (extAddr e g.1) (acc.1.take g.2) acc.2)
      | none => acc.2
    (acc.1.drop g.2, s)) (b, s)
  go.2

/-- Adds to the account of a pass (R334). -/
def setAcc (n p : Nat) (f : PassAcc → PassAcc) (s : State) : State :=
  setCard n (fun c => { c with acc := mmod c.acc p f }) s

/-- FILL_READ_RESPONSE (R327). -/
def fillReadResponse (id : Nat) (s : State) : State :=
  match readDone s id, mget s.eng.reads id with
  | some res, some (.fill n key step share k) =>
    if !running s then s else
    let s := { dropRead id s with eng.reads := mdel s.eng.reads id }
    match cardAt s n with
    | none => s
    | some c => match c.fills.find? fun f => f.n == key && f.step == step && f.share == share && f.next == k with
      | none => s
      | some f =>
        let slot := fld (stepRaw c.raw step) 28 2
        let sh := ((c.split.getD step [])[share]?).getD { tile := 0, lo := 0, hi := 0 }
        let pass := if c.resident then c.nextN / max 1 (rcLayers c.raw) else key / max 1 (rcLayers c.raw)
        let s := setAcc n pass (fun a => { a with lower := a.lower + slot }) s
        let put := fun (g : CFill) => setCard n fun c => { c with fills := modIf (· == f) (fun _ => g) c.fills }
        let fail := fun s => startFill n (endFill n f (count 0x07000408 s))
        let r := if res.1 ≠ 0 then 0x22 else envRow false k slot res.2
        if r = 1 ∧ !f.again then
          let g := { f with again := true }
          readFill n c g (put g s)
        else if r ≠ 0 then fail s
        else match sharePlace c key step share with
          | none => fail s
          | some place =>
            let s := rcCount c.comp n 0x20 slot (writeWindow c (engineCrest sh.tile) (place + (k - sh.lo) * slot) res.2 s)
            if k + 1 < sh.hi then
              let g := { f with next := k + 1, again := false }
              readFill n c g (put g s)
            else startFill n (endFill n f (setCard n (fun c => { c with filled := c.filled ++ [(key, step, share)] }) s))
  | _, _ => s

/-- Shares of a card whose window bytes cover an ECC word found in error are no longer filled (R333). -/
def unfillWord (w : Nat) (s : State) : State :=
  each s.cards (fun p s =>
    let c := p.2
    let hit := c.filled.filter fun t =>
      let sh := ((c.split.getD t.2.1 [])[t.2.2]?).getD { tile := 0, lo := 0, hi := 0 }
      match sharePlace c t.1 t.2.1 t.2.2 with
      | none => false
      | some place =>
        (ringSegs c.raw (engineCrest sh.tile) place ((sh.hi - sh.lo) * fld (stepRaw c.raw t.2.1) 28 2)).any fun g =>
          (blocks4k g.1 (g.2 / 4096 + 2) g.2).any fun b => match extAt s (rcWinSpace c.raw) b.1 with
            | some (_, e) => decide (extAddr e b.1 < w * 32 + 32) && decide (w * 32 < extAddr e b.1 + b.2)
            | none => false
    if hit = [] then s else
    startFill p.1 (setCard p.1 (fun c => { c with filled := c.filled.filter (!hit.contains ·), todo := c.todo ++ hit }) s)) s

/-! ### Gates (R330) -/

/-- HBM address of a card's release word. -/
def relWord (s : State) (c : Card) : Option Nat :=
  match extAt s (rcRelSpace c.raw) (rcRelAddr c.raw) with
  | some (_, e) => if e.hbm then some (extAddr e (rcRelAddr c.raw)) else none
  | none => none

/-- Layers whose gate has opened: every position below the number. -/
def gateN (c : Card) : Nat := c.gates.foldl (fun m g => max m g.1) (rcDepth c.raw)

/-- Instant at which the gate of a layer opened: that of its arming where nothing had to be released. -/
def gateAt (c : Card) (n : Nat) : Nat :=
  if n < rcDepth c.raw then (mget c.armed n).getD 0 else ((c.gates.find? fun g => decide (n < g.1)).map (·.2)).getD 0

/-- Held steps of layers whose gate is open go out, with their deadlines (R330). -/
def openHeld (n : Nat) (s : State) : State :=
  match cardAt s n with
  | none => s
  | some c =>
    let mine : HDesc → Bool := fun d => d.held && (d.card.any fun x => x.1 == n && decide (x.2.1 < gateN c))
    let s := { s with haul.descs := modIf mine (fun d =>
      let l := (d.card.map fun x => x.2.1).getD 0
      let dl := layerDl c.raw (layerOf c l)
      { d with held := false, deadline := if dl = 0 then 0 else gateAt c l + dl * 1000 }) s.haul.descs }
    each c.acc (fun p s =>
      let first := p.1 * rcLayers c.raw
      if p.2.tStart = 0 ∧ first < gateN c ∧ (mget c.armed first).isSome then
        setAcc n p.1 (fun a => { a with tStart := gateAt c first }) s else s) s

/-- The gates of a card are evaluated (R330). -/
def evalGates (n : Nat) (s : State) : State :=
  match cardAt s n with
  | none => s
  | some c => match relWord s c with
    | none => s
    | some a =>
      let v := fld (memRead s.mem a 8) 0 8
      let g := rcDepth c.raw + (v + 2 ^ 64 - c.r0) % 2 ^ 64 / max 1 (rcRel c.raw)
      if c.st ≠ 1 ∨ g ≤ gateN c then s
      else openHeld n (setCard n (fun c => { c with gates := c.gates ++ [(g, s.clock.tb)] }) s)

/-- A WR or atomic has been performed on a range of HBM: the cards whose release word it met evaluate their gates. -/
def gateOpenAt (a n : Nat) (s : State) : State :=
  each s.cards (fun p s => match relWord s p.2 with
    | some r => if r < a + n ∧ a < r + 8 then evalGates p.1 s else s
    | none => s) s

/-! ### Pass records, stops and ends -/

/-- A pass record (Table 11-8). -/
def passRecord (n p status : Nat) (s : State) : State :=
  match cardAt s n with
  | none => s
  | some c =>
    let a := mgetD c.acc p {}
    let pl := le 1 status ++ le 1 n ++ le 2 (min a.failed 65535) ++ le 4 p ++ le 8 (rcTag c.raw) ++ le 8 a.tStart ++ le 8 a.tEnd ++
      le 2 a.first ++ le 2 (min a.direct 65535) ++ le 1 (if c.resident then 0 else c.depth) ++ zeros 3 ++ le 8 a.outBytes ++ le 8 a.lower ++ zeros 8
    ringPut c.comp (rcRing c.raw) { type := 4, status, payload := pl }
      (setCard n (fun c => { c with lastStatus := status, acc := mdel c.acc p }) s)

/-- A pass takes a status, unless it has one. -/
def markPass (n p status : Nat) (s : State) : State := setAcc n p (fun a => { a with status := if a.status = 0 then status else a.status }) s

/-- A card stops (R325, R332): armed steps whose gate has not opened end with ABORTED, those not posted yet at once. -/
def stopCard (n status : Nat) (s : State) : State :=
  match cardAt s n with
  | none => s
  | some c =>
    if c.st ≠ 1 then s else
    let lost := ((c.steps.filter (·.desc.isNone)).map fun t => t.n / max 1 (rcLayers c.raw)).eraseDups
    let s := setCard n (fun c => { c with
      st := 2, stopWith := status, steps := c.steps.filter (·.desc.isSome), todo := [], fills := [], fillNow := none }) s
    let s := each lost (fun p s => markPass n p status s) s
    each (s.haul.descs.filter fun d => d.held && d.card.any (·.1 == n)) (stopHaul 0x41) s

/-- A layer's last step has ended: its space is free again, and E is measured (R326, R328). -/
def layerEnded (n x : Nat) (s : State) : State :=
  setCard n (fun c =>
    let lastE := if x < gateN c then some (s.clock.tb - gateAt c x) else c.lastE
    { c with lastE, armed := mdel c.armed x, placed := c.placed.filter (·.n != x)
             filled := if c.resident then c.filled else c.filled.filter (·.1 != x) }) s

/-- A step has ended (R332). -/
def stepEnded (e : StepEnd) (s : State) : State :=
  match cardAt s e.card with
  | none => s
  | some c =>
    let n := e.card
    let pass := e.n / max 1 (rcLayers c.raw)
    let s := setCard n (fun c => { c with steps := c.steps.filter fun x => !(x.n == e.n && x.step == e.step) }) s
    let s := setAcc n pass (fun a => { a with outBytes := a.outBytes + e.outBytes, lower := a.lower + e.lower, tEnd := s.clock.tb }) s
    let key := winKey c e.n
    let s :=
      if e.status = 0 then s
      else if e.held ∧ e.status = 0x41 ∧ c.st = 2 then markPass n pass c.stopWith s
      else if e.status = 0x50 ∨ e.status = 0x51 ∨ e.status = 0x30 then
        stopCard n e.status (markPass n pass e.status s)
      else
        let s := setAcc n pass (fun a => { a with
          status := if a.status = 0 then e.status else a.status, failed := a.failed + 1
          first := if a.failed = 0 then e.step else a.first }) s
        let again := if c.resident then c.filled.filter fun t => t.1 == key && t.2.1 == e.step else []
        rcCount c.comp n 0x30 1 (setCard n (fun c => { c with
          filled := c.filled.filter fun t => !(t.1 == key && t.2.1 == e.step), todo := c.todo ++ again }) s)
    let ended := match cardAt s n with
      | some c => !(c.steps.any (·.n == e.n)) && decide (e.n < c.nextN)
      | none => false
    if ended then layerEnded n e.n s else s

/-- The card's pages go: its copy, its entry and its counters (R325, R476). -/
def freeCard (n : Nat) (s : State) : State :=
  match cardAt s n with
  | none => s
  | some c =>
    let s := each c.copy (fun a => freeRun c.comp a 1) { s with cards := mdel s.cards n }
    { s with ctrs := s.ctrs.filter fun p => !(decide (0x07002000 + 64 * n ≤ p.1) && decide (p.1 < 0x07002000 + 64 * n + 64)) }

/-- Pages that a card charges. -/
def cardPages (c : Card) : Nat := c.copy.length + sum ((List.range 4).map (rcWin c.raw))

/-- A card goes on as far as it can: finished passes, a stop, a load or an unload that is over. -/
def stepCard (n : Nat) (s : State) : State :=
  match cardAt s n with
  | none => s
  | some c =>
    let m := max 1 (rcLayers c.raw)
    let doneP := fun p => decide ((p + 1) * m ≤ c.nextN) && !(c.steps.any fun x => x.n / m == p)
    match c.st with
    | 1 =>
      let s := each ((c.acc.map (·.1)).filter doneP) (fun p s =>
        passRecord n p (mgetD c.acc p {}).status (setCard n (fun c => { c with passesDone := if conf s c.comp then 0 else c.passesDone + 1 }) s)) s
      if c.passes ≠ 0 ∧ c.nextN = c.passes * m ∧ c.steps = [] then setCard n (fun c => { c with st := 0 }) s else prefetch n s
    | 2 =>
      if c.steps ≠ [] then s else
      let full := (c.acc.map (·.1)).filter doneP
      let s := each full (fun p s =>
        let st := (mgetD c.acc p {}).status
        passRecord n p st (if st = c.stopWith ∨ conf s c.comp then s else setCard n (fun c => { c with passesDone := c.passesDone + 1 }) s)) s
      let p := c.nextN / m
      let s := if full ≠ [] ∧ c.nextN % m = 0 then s
        else passRecord n p (if (mgetD c.acc p {}).status = 0 then c.stopWith else (mgetD c.acc p {}).status) s
      finishAll (.card n) 0 [] (setCard n (fun c => { c with st := 0, acc := [] }) s)
    | 3 =>
      if c.todo = [] ∧ c.fills = [] then finishAll (.card n) 0 (le 4 (cardPages c)) (setCard n (fun c => { c with st := 0 }) s) else s
    | 4 =>
      if s.xlt.extents.any fun e => e.2.card == some n then s else finishAll (.card n) 0 [] (freeCard n s)
    | _ => s

/-- Haul engines and Route Cards go on after any change. -/
def settleCards (s : State) : State :=
  let s := settleHaul s
  let es := s.haul.ends
  let s := each es stepEnded { s with haul.ends := [] }
  let s := each (s.cards.map (·.1)) stepCard s
  if es = [] then settleQuiesce s else
  let s := settleHaul s
  let es := s.haul.ends
  settleQuiesce (each (s.cards.map (·.1)) stepCard (each es stepEnded { s with haul.ends := [] }))

/-! ### ROUTE_LOAD (R324, R325) -/

/-- Row BAD_PARAM of Table 11-7 for the header alone. -/
def headerBad (s : State) (k : Nat) (b : List Byte) : Bool :=
  byteAt b 0 != 1 || decide (2 ≤ byteAt b 1) || rcLayers b == 0 || decide (1024 < rcLayers b) || rcSteps b == 0 || decide (16384 < rcSteps b) ||
  rcDepth b == 0 || decide (4 < rcDepth b) || byteAt b 7 != 0 || (List.range 4).any (fun c => decide (136305 < rcWin b c)) ||
  decide (1024 ≤ fld b 32 2) || decide (1024 ≤ fld b 34 2) || rcRel b == 0 || decide (1024 ≤ fld b 38 2) ||
  decide (2 ^ 46 ≤ fld b 40 8) || fld b 40 8 % pageSize != 0 || decide (2 ^ 46 ≤ fld b 48 8) || fld b 48 8 % 8 != 0 || !zeroAt b 56 8 ||
  !(((findRing s k (rcRing b)).map fun r => decide (7 ≤ r.esize)).getD false)

/-- A layer entry that breaks R322. -/
def layersBad (b : List Byte) : Bool :=
  let n := rcLayers b
  layerFirst b 0 != 0 || (List.range n).any fun l =>
    layerSteps b l == 0 || !zeroAt b (64 + 16 * l + 8) 8 ||
    layerFirst b l + layerSteps b l != if l + 1 = n then rcSteps b else layerFirst b (l + 1)

/-- A step that breaks R323, or whose unit has no engines to lay out. -/
def stepBad (s : State) (k : Nat) (raw : List Byte) : Bool :=
  let d : HDesc := { id := 0, unit := byteAt raw 2 % 64, raw, shares := [] }
  !d.expand || d.comp != k || d.descId != 0 || d.h 16 8 != 0 || d.h 14 2 != 0 || haulFields d || !unitThere s (128 + d.unit)

/-- Is a range of a space free of extents, rings and the capture ring? -/
def unmapped (s : State) (space a n : Nat) : Bool :=
  !(s.xlt.extents.any fun e => e.2.space == space && decide (e.2.offset < a + n) && decide (a < e.2.offset + e.2.size)) &&
  !(s.cmd.rings.any fun r => r.space == space && decide (r.offset < a + n) && decide (a < r.offset + r.npages * pageSize)) &&
  !(s.sw.capture.any fun c => c.space == space && decide (c.offset < a + n) && decide (a < c.offset + c.size))

/-- Shares of each step, by the membership of its unit now (R324). -/
def cardSplit (s : State) (b : List Byte) : List (List ShareSt) :=
  (List.range (rcSteps b)).map fun k =>
    let raw := stepRaw b k
    splitSpan s 1 65 (128 + byteAt raw 2 % 64) 0 (fld raw 24 4)

/-- Row BAD_PARAM of Table 11-7 for the whole image. -/
def imageBad (s : State) (k : Nat) (b : List Byte) : Bool :=
  let total := sum ((List.range 4).map (rcWin b)) * pageSize
  let rel := extAt s (rcRelSpace b) (rcRelAddr b)
  let split := cardSplit s b
  headerBad s k b || layersBad b || (List.range (rcSteps b)).any (fun i => stepBad s k (stepRaw b i)) ||
  (match streamAt s k (rcWinSpace b) (rcWinAddr b) total with
    | none => true
    | some r => !unmapped s (rcWinSpace b) (rcWinAddr b) total || (List.range (rcSteps b)).any fun i =>
        let d : HDesc := { id := 0, unit := 0, raw := stepRaw b i, shares := [] }
        match streamAt s k d.srcSpace d.srcAddr (d.nblk * d.slot) with
        | some q => q.conf != r.conf
        | none => false) ||
  !((rel.map fun e => e.2.hbm && spaceComp s (rcRelSpace b) == k).getD false) ||
  s.dir.regions.any (fun r => r.2.space == rcRelSpace b && r.2.mode != 1 && decide (r.2.base ≤ rcRelAddr b) &&
    decide (rcRelAddr b < r.2.base + r.2.size)) ||
  (List.range (rcLayers b)).any fun l => (List.range 4).any fun c => decide (rcWin b c * pageSize < layerBytes b split l c)

/-- Allocates the pages of the copy on Crest 0 and writes the image into them. -/
def makeCopy (k : Nat) (b : List Byte) : Nat → State → List Nat × State
  | 0, s => ([], s)
  | n + 1, s =>
    let (ps, s) := makeCopy k b n s
    match allocRun k 1 .sys (some 0) s with
    | none => (ps, s)
    | some (a, s) => (ps ++ [a], hbmWrite (a * pageSize) (slice b (n * pageSize) pageSize) s)

/-- Maps the window as 2 MiB extents, each on its Crest (R324). -/
def mapWindow (n k : Nat) (b : List Byte) (s : State) : State :=
  let cs := ((List.range 4).map fun c => List.replicate (rcWin b c) c).flatten
  ((List.range cs.length).zip cs).foldl (fun s p =>
    match allocRun k 1 .win (some p.2) s, anyFree (fun x => (mget s.xlt.extents x).isSome) (freeVal s) 65536 with
    | some (a, s), some x =>
      let e : Extent := { space := rcWinSpace b, offset := rcWinAddr b + p.1 * pageSize, size := pageSize, hbm := true, base := a, card := some n }
      { s with xlt.extents := mset s.xlt.extents x e }
    | _, _ => s) s

/-- A command that waited for its checks becomes pending. -/
def pendHeld (c : CmdRec) (what : LongFor) (s : State) : State :=
  applyRes c (.pending what) (setQueue c.comp c.queue (fun q => { q with busy := if q.busy = some c then none else q.busy }) s)

/-- LOAD with its whole image: the remaining rows of Table 11-7, and the load (R324). -/
def loadCard (c : CmdRec) (b : List Byte) (s : State) : State :=
  let n := pb c 1
  let k := c.comp
  let pages := ceilDiv (rcImageLen b) pageSize
  let per := (List.range 4).map fun i => rcWin b i + if i = 0 then pages else 0
  if !compLive s k then endPost c 0x51 0 s
  else if (cardAt s n).isSome ∨ imageBad s k b then endPost c 0x11 0 s
  else if !hbmFits (comp s k) per ∨ 65536 < s.xlt.extents.length + sum ((List.range 4).map (rcWin b)) then endPost c 0x15 0 (quotaRej s)
  else
    let (copy, s) := makeCopy k b pages s
    let s := mapWindow n k b s
    let split := cardSplit s b
    let resident := (List.range 4).all fun x =>
      decide (sum ((List.range (rcLayers b)).map fun l => layerBytes b split l x) ≤ rcWin b x * pageSize)
    let card : Card := { comp := k, raw := b, copy, split, resident }
    let card := if !bit (byteAt b 1) 0 then card
      else if resident then { card with todo := ((List.range (rcLayers b)).map (keyShares card)).flatten }
      else placeAhead (rcLayers b) (rcLayers b) card
    let s := { s with
      cards := mset s.cards n card
      ctrs := s.ctrs.filter fun p => !(decide (0x07002000 + 64 * n ≤ p.1) && decide (p.1 < 0x07002000 + 64 * n + 64)) }
    stepCard n (startFill n (pendHeld c (.card n) s))

/-- The command's own ring has entries of at least 128 bytes. -/
def ringBig (s : State) (c : CmdRec) : Bool := ((findRing s c.comp c.ring).map fun r => decide (7 ≤ r.esize)).getD false

/-- ROUTE_LOAD LOAD: the read of the image's header. -/
def routeLoadBody (c : CmdRec) (s : State) : CmdRes × State :=
  if !ringBig s c then bad 0x11 s
  else if s.dev.devState = .quiesced ∨ s.dev.devState = .baseCamp then retryRes 15 s
  else if !compLive s c.comp then bad 0x51 s
  else if (cardAt s (pb c 1)).isSome then bad 0x11 s
  else
    let (id, s) := issueRead c.comp c.job (pf c 2 2) (pf c 8 8) 64 4 0 s
    (.held, { s with eng.reads := mset s.eng.reads id (.card c false) })

/-- A read of a card image that has ended. -/
def cardRead (id : Nat) (c : CmdRec) (whole : Bool) (s : State) : State :=
  match readDone s id with
  | none => s
  | some (st, b) =>
    let s := { dropRead id s with eng.reads := mdel s.eng.reads id }
    if st ≠ 0 then endPost c st 0 s
    else if whole then loadCard c b s
    else if headerBad s c.comp b then endPost c 0x11 0 s
    else
      let (i, s) := issueRead c.comp c.job (pf c 2 2) (pf c 8 8) (rcImageLen b) 4 0 s
      { s with eng.reads := mset s.eng.reads i (.card c true) }

/-- Card reads that have their data go on. -/
def settleCardReads : Nat → State → State
  | 0, s => s
  | n + 1, s =>
    match s.eng.reads.findSome? fun p => match p.2 with
      | .card c w => if (readDone s p.1).isSome then some (p.1, c, w) else none
      | _ => none with
    | none => s
    | some (id, c, w) => settleCardReads n (cardRead id c w s)

/-- ROUTE_LOAD START (R325). -/
def routeStartBody (c : CmdRec) (s : State) : CmdRes × State :=
  let n := pb c 1
  match cardAt s n with
  | none => bad 0x11 s
  | some x =>
    if x.comp ≠ c.comp then bad 0x13 s
    else if !ringBig s c ∨ x.st ≠ 0 then bad 0x11 s
    else
      let st := genCheck s x.comp 0xFFFF (rcRelSpace x.raw) (rcRelAddr x.raw) 8 2
      match relWord s x with
      | none => bad (if st = 0 then 0x12 else st) s
      | some a =>
        if st ≠ 0 then bad st s
        else if poisoned s a 8 then bad 0x20 s
        else
          let keep := x.resident || x.passesDone == 0 && x.nextN == 0
          let x := { x with
            st := 1, passes := pf c 4 4, r0 := fld (memRead s.mem a 8) 0 8, nextN := 0, steps := [], armed := [], gates := [], acc := []
            stopWith := 0x41, lastF := none, lastE := none, depth := if x.resident then 0 else x.depth, fills := [], fillNow := none
            filled := if keep then x.filled else [], placed := if keep then x.placed else [], fillN := if keep then x.fillN else 0 }
          let x := { x with todo := if x.resident then
              (((List.range (rcLayers x.raw)).map (keyShares x)).flatten).filter (!x.filled.contains ·) else [] }
          (okRes, prefetch n { s with cards := mset s.cards n x })

/-- ROUTE_LOAD STOP (R325). -/
def routeStopBody (c : CmdRec) (s : State) : CmdRes × State :=
  let n := pb c 1
  match cardAt s n with
  | none => bad 0x11 s
  | some x =>
    if x.comp ≠ c.comp then bad 0x13 s
    else if !ringBig s c ∨ x.st = 3 ∨ x.st = 4 then bad 0x11 s
    else (.pending (.card n), if x.st = 1 then stopCard n 0x41 s else s)

/-- ROUTE_LOAD UNLOAD (R325): every window extent is revoked. -/
def routeUnloadBody (c : CmdRec) (s : State) : CmdRes × State :=
  let n := pb c 1
  match cardAt s n with
  | none => bad 0x11 s
  | some x =>
    if x.comp ≠ c.comp then bad 0x13 s
    else if !ringBig s c ∨ x.st ≠ 0 then bad 0x11 s
    else
      let s := setCard n (fun x => { x with st := 4 }) s
      (.pending (.card n), each (s.xlt.extents.filter fun e => e.2.card == some n && !e.2.draining) (fun e => beginRevoke e.1) s)

/-- Lets the state of a card decide at once once its command is pending: a STOP of a card that does not run, an UNLOAD whose
extents have gone. -/
def afterRoute (n : Nat) (s : State) : State :=
  let s := settleCards s
  match cardAt s n with
  | some c => if c.st = 0 then finishAll (.card n) 0 [] s else s
  | none => s

/-! ### Arming and posting (R329, R332) -/

/-- The descriptor that a step is posted with (R323). -/
def stepPost (c : Card) (n k card : Nat) : List Byte :=
  let raw := stepRaw c.raw k
  let pass := n / max 1 (rcLayers c.raw)
  raw.take 8 ++ le 4 (0x80000000 + card * 2 ^ 24 + pass % 1024 * 2 ^ 14 + k) ++ raw.drop 12

/-- Posts a step; shares not filled are read from their source, and their fills are abandoned (R329). -/
def postStep (n x k : Nat) (s : State) : State :=
  match cardAt s n with
  | none => s
  | some c =>
    if c.st ≠ 1 then s else
    let raw := stepPost c x k n
    let r := haulRow s raw true
    let mine : CStep → Bool := fun t => t.n == x && t.step == k
    if r.status = 0x02 then setCard n (fun c => { c with steps := modIf mine (fun t => { t with retry := true }) c.steps }) s
    else if r.status ≠ 0 then
      let s := setCard n (fun c => { c with steps := c.steps.filter (!mine ·) }) (rowCount r s)
      let p := x / max 1 (rcLayers c.raw)
      stopCard n r.status (markPass n p r.status s)
    else
      let key := winKey c x
      let win := fun i => if c.filled.contains (key, k, i) then sharePlace c key k i else none
      let d := haulDesc s raw (some (n, x, k)) true win
      let direct := (d.shares.filter fun sh => sh.win.isNone && decide (sh.lo < sh.hi)).length
      let drop := c.fills.filter fun f => f.n == key && f.step == k
      let s := setCard n (fun c => { c with
        steps := modIf mine (fun t => { t with retry := false, desc := some d.id }) c.steps
        todo := c.todo.filter fun t => !(t.1 == key && t.2.1 == k) }) s
      let s := each drop (endFill n) s
      let s := setAcc n (x / max 1 (rcLayers c.raw)) (fun a => { a with direct := a.direct + direct }) s
      openHeld n (rcCount c.comp n 0x28 direct (acceptHaul d s))

/-- LAYER_ARM (R328, R329). -/
def layerArm (n : Nat) (s : State) : State :=
  match cardAt s n with
  | none => s
  | some c =>
    let x := c.nextN
    let m := max 1 (rcLayers c.raw)
    if !running s ∨ c.st ≠ 1 ∨ (c.passes ≠ 0 ∧ c.passes * m ≤ x) ∨ c.steps.any (fun t => t.retry && t.n + 1 == x) then s else
    let l := layerOf c x
    let d := if c.resident then 0 else cardDepth s c
    let ks := layerList c.raw l
    let s := setCard n (fun c => { c with
      nextN := x + 1, layerNow := if conf s c.comp then 0 else l, depth := d
      depthChanges := if c.resident ∨ d = c.depth then c.depthChanges else satAdd 0xFFFFFF c.depthChanges 1
      armed := mset c.armed x s.clock.tb, acc := if (mget c.acc (x / m)).isSome then c.acc else mset c.acc (x / m) {}
      steps := c.steps ++ ks.map fun k => { n := x, step := k } }) s
    settleCards (each ks (postStep n x) s)

/-- STEP_REPOST (R332): a step refused with RETRY_LATER is posted again. -/
def stepRepost (n k : Nat) (s : State) : State :=
  match cardAt s n with
  | none => s
  | some c => match c.steps.find? fun t => t.step == k && t.retry with
    | none => s
    | some t => if !running s ∨ c.st ≠ 1 then s else settleCards (postStep n t.n k s)

/-! ### Usage (R318) -/

/-- USAGE_INTEGRAL_TICK: the integrals of every composition that exists. -/
def usageTick (s : State) : State :=
  if !running s then s else
  each ((s.comps.filter (·.2.st != 0)).map (·.1)) (fun k => setComp k fun c => { c with
    hbmMs := satAdd (2 ^ 64 - 1) c.hbmMs (sum c.hbmUse), trayMs := satAdd (2 ^ 64 - 1) c.trayMs c.trayUse }) s

/-! ### Haul commands, after which Route Cards may go on -/

/-- A response to a message (R125): one for this Talik answers a Haul PUT (R301), any other is forwarded by DST. -/
def messageAnswer (lp tc : Nat) (p : Kmt) (s : State) : State :=
  if !takesPackets s lp ∨ !p.rsp then s
  else if p.dst ≠ selfEp s then msgResponse lp tc p s
  else
    let s := takeRx lp tc p s
    if p.opcode = 0x40 then settleCards (putAnswered p s) else s

/-- HAUL_RESET_DONE (R310). -/
def haulResetDone (u : Nat) (clean : Bool) (s : State) : State :=
  let top := topOf s (128 + u)
  if (eunit s top).rstBusy then endReset top clean (atLeast ((eunit s top).rstAt + scrubNs top) s) else s

def execHaulPost (comp q : Nat) (s : State) : Host.Outcome State Fault Refusal :=
  .next (settleCards (runCmd comp q 0x40 anyAct haulPostBody s))
def execBlockReadResponse (id : Nat) (s : State) : Host.Outcome State Fault Refusal := .next (settleCards (blockReadResponse id s))
def execCodebookLoadDone (id : Nat) (s : State) : Host.Outcome State Fault Refusal := .next (settleCards (codebookLoadDone id s))
def execPutResponse (lp tc : Nat) (p : Kmt) (s : State) : Host.Outcome State Fault Refusal := .next (messageAnswer lp tc p s)
def execMessageResponse (lp tc : Nat) (p : Kmt) (s : State) : Host.Outcome State Fault Refusal := .next (messageAnswer lp tc p s)
def execPutTmoExpiry (id : Nat) (s : State) : Host.Outcome State Fault Refusal := .next (settleCards (putTmoExpiry id s))
def execHaulDeadlineCheck (unit : Nat) (s : State) : Host.Outcome State Fault Refusal := .next (settleCards (haulDeadlineCheck unit s))
def execHaulResetDone (unit : Nat) (clean : Bool) (s : State) : Host.Outcome State Fault Refusal := .next (haulResetDone unit clean s)
def execHaulUe (engine : Nat) (s : State) : Host.Outcome State Fault Refusal := .next (settleCards (haulUe engine s))

def execRouteLoadLoad (comp q : Nat) (s : State) : Host.Outcome State Fault Refusal :=
  .next (settleCardReads 4 (runCmd comp q 0x41 (· == 1) routeLoadBody s))
def execRouteLoadStart (comp q : Nat) (s : State) : Host.Outcome State Fault Refusal :=
  .next (settleCards (runCmd comp q 0x41 (· == 2) routeStartBody s))
def execRouteLoadStop (comp q : Nat) (s : State) : Host.Outcome State Fault Refusal :=
  let n := ((startable s comp q).map fun c => pb c 1).getD 16
  .next (afterRoute n (runCmd comp q 0x41 (· == 3) routeStopBody s))
def execRouteLoadUnload (comp q : Nat) (s : State) : Host.Outcome State Fault Refusal :=
  .next (settleCards (runCmd comp q 0x41 (· == 4) routeUnloadBody s))
def execLayerArm (card : Nat) (s : State) : Host.Outcome State Fault Refusal := .next (layerArm card s)
def execFillReadResponse (id : Nat) (s : State) : Host.Outcome State Fault Refusal := .next (settleCards (fillReadResponse id s))
def execStepRepost (card step : Nat) (s : State) : Host.Outcome State Fault Refusal := .next (stepRepost card step s)
def execUsageIntegralTick (s : State) : Host.Outcome State Fault Refusal := .next (usageTick s)

end Sys2Proof.Machine
end

