-- ==== Sys2Proof/Machine/Regs.lean ====
section
/-! DEFINITION. The register window (chapter 17 and the register tables of every chapter): what each word reads as, the latches
of R8, and what a write of a word does. -/

namespace Sys2Proof.Machine

/-! ### Which words are wide, and which count -/

/-- Offsets of the 64-bit counters of an engine tile, an engine Rope, a Haul engine and a Haul Rope. -/
def tileCtrs : List Nat :=
  [0x100, 0x108, 0x110, 0x118, 0x120, 0x128, 0x130, 0x140, 0x148, 0x150, 0x158, 0x160, 0x168, 0x170, 0x180, 0x188, 0x190]
def ropeCtrs : List Nat := [0x40, 0x48, 0x50, 0x58, 0x60, 0x68, 0x70, 0x78, 0x80, 0x88, 0x90, 0x98, 0xA0, 0xA8, 0xB0]
def haulCtrs : List Nat := [0x100, 0x108, 0x110, 0x118, 0x120, 0x128, 0x130, 0x138, 0x140, 0x148, 0x150]
def haulRopeCtrs : List Nat := [0x40, 0x48, 0x50, 0x58, 0x60, 0x68]
def portCtrs : List Nat := [0x100, 0x108, 0x110, 0x118, 0x120, 0x128, 0x130, 0x138, 0x140]

/-- Is the address within `[lo, hi)`? -/
def within (a lo hi : Nat) : Bool := decide (lo ≤ a) && decide (a < hi)

/-- Is it the low word of a 64-bit RC counter (Tables 2-20, 3-12, 4-12, 5-12, 6-14, 7-11, 8-15, 9-12, 10-15, 11-16, 11-17, 12-14,
13-16, 15-14)? -/
def isCounter (a : Nat) : Bool :=
  a % 8 == 0 &&
  (if within a 0x01000000 0x01600000 then portCtrs.contains (a % 0x10000)
   else if within a 0x02000000 0x03000000 then
     within a 0x02000400 0x02000480 || a == 0x02000480 || a == 0x02000488
   else if within a 0x03000000 0x04000000 then within a 0x03000400 0x03000470
   else if within a 0x04000000 0x05000000 then within a 0x04000400 0x04000470
   else if within a 0x05000000 0x05400000 then tileCtrs.contains (a % 0x10000)
   else if within a 0x05400000 0x05404000 then ropeCtrs.contains (a % 0x100)
   else if within a 0x05800000 0x06000000 then within a 0x05800400 0x05800428 || within a 0x05800480 0x058004A0
   else if within a 0x06000000 0x06200000 then haulCtrs.contains (a % 0x10000)
   else if within a 0x06400000 0x06402000 then haulRopeCtrs.contains (a % 0x100)
   else if within a 0x06800000 0x07000000 then a == 0x06800400
   else if within a 0x07000000 0x08000000 then
     within a 0x07000400 0x07000418 || within a 0x07000500 0x07000580 ||
       (within a 0x07002000 0x07002400 && [0x20, 0x28, 0x30].contains (a % 64))
   else if within a 0x08000000 0x09000000 then within a 0x08000400 0x08000440
   else if within a 0x09000000 0x0A000000 then within a 0x09000400 0x09000430
   else if within a 0x0A000000 0x0B000000 then within a 0x0A000400 0x0A000450
   else a == 0x0B000020)

/-- Low words of the 64-bit registers that are no counters (R8). -/
def isWideReg (a : Nat) : Bool :=
  a % 8 == 0 &&
  ([0x20, 0x28, 0x05800008, 0x08000010, 0x09000008, 0x0A000008, 0x0A000010, 0x0A000028, 0x0A000040, 0x0B000008, 0x0B000010,
     0x0B000018, 0x0C000100].contains a ||
   (within a 0x01000000 0x01600000 && a % 0x10000 == 0x148) ||
   within a 0x02000100 0x02000140 || within a 0x02200000 0x02208000 ||
   (within a 0x04030000 0x04050000 && a % 32 != 0) ||
   (within a 0x05400000 0x05404000 && a % 0x100 == 0x20) ||
   (within a 0x06400000 0x06402000 && a % 0x100 == 0x10) ||
   (within a 0x07002000 0x07002400 && a % 64 == 0x10) ||
   (within a 0x08100000 0x08200000 && a % 16 == 8) ||
   within a 0x0A030000 0x0A037FF8 || a == 0x0A037FF8)

/-- Low word of a 64-bit register. -/
def isWide (a : Nat) : Bool := isCounter a || isWideReg a

/-! ### What each register holds -/

/-- The INFO value of a block (Tables 17-1, 17-2). -/
def infoWord (b : Nat) : Nat :=
  b * 2 ^ 24 + 0x10000 + (if b = 1 then 0x6000 else if b = 5 then 0x4000 else if b = 6 then 0x2000 else 0x100)

/-- Code of a device state (Table 14-9). -/
def devCode : DevState → Nat
  | .baseCamp => 0
  | .full => 1
  | .seconding => 2
  | .quiesced => 3
  | .bivouac => 4

/-- Number of HBM stacks (Table 1-8). -/
def hbmStacks (s : State) : Nat := if s.dev.part = .ct9616 then 12 else 8

/-- HUT_PART_ID (Table 1-8). -/
def partId (s : State) : Nat := if s.dev.part = .ct9616 then 0xB00C9616 else 0xB0089608

/-- Pool pages of a Crest (Table 11-1). -/
def poolPages (s : State) : Nat := if s.dev.part = .ct9616 then 136305 else 90528

/-- Words of the HUT block. -/
def hutWord (s : State) (o : Nat) : Nat :=
  match o with
  | 0x00 => 0xCA110100
  | 0x04 => partId s
  | 0x08 => s.dev.stage * 2 ^ 28 + s.dev.bootErr * 2 ^ 20 + min s.dev.stageMs (2 ^ 20 - 1)
  | 0x0C => s.dev.resetCause
  | 0x10 => s.dev.devChanges * 2 ^ 16 + devCode s.dev.devState
  | 0x1C => b2n (s.dev.devState = .bivouac) * 2 ^ 31 + b2n s.dev.roBusy * 2 ^ 30 + b2n s.dev.frzInReset * 2 ^ 29 + s.dev.roStat
  | 0x14 => reg s 0x14
  | 0x20 => reg s 0x20
  | 0x24 => reg s 0x24
  | 0x28 => s.dev.frzData % 2 ^ 32
  | 0x2C => s.dev.frzData / 2 ^ 32
  | 0x30 => b2n s.dev.jtagRo
  | _ => if within o 0x40 0x50 then (s.sec.image.map fun i => fld (padTo 16 i.version) (o - 0x40) 4).getD 0 else 0

/-- PORT_STATUS lane masks of a physical port: lanes up, lanes failed. -/
def portLanes (s : State) (p : Nat) : Nat × Nat :=
  let ls := (List.range 8).map fun f => lport s (8 * p + f)
  (ls.foldl (fun m l => m ||| l.lanes) 0, ls.foldl (fun m l => m ||| l.failed) 0)

/-- Words of a port (Tables 2-12 to 2-20). -/
def portWord (s : State) (p o : Nat) : Nat :=
  match o with
  | 0x08 => let m := portLanes s p; m.1 * 2 ^ 24 + m.2 * 2 ^ 16 + reg s (portReg p 8)
  | 0x0C => sum ((List.range 8).map fun k => if isLport s (8 * p + k) then (lport s (8 * p + k)).st * 16 ^ k else 0)
  | 0x1C => 0
  | 0x148 => (lport s (8 * p)).penNow
  | _ =>
    if o ≤ 0x18 then reg s (portReg p o)
    else if within o 0x20 0x40 ∧ isLport s (8 * p + (o - 0x20) / 4) then reg s (portReg p o)
    else 0

/-- Logarithm of an extent's or region's size. -/
def log2 (n : Nat) : Nat := Nat.log2 n

/-- Words of XLT_SPACE, XLT_JOB and XLT_EXT entries (R145, Table 4-11). -/
def xltEntry (s : State) (o : Nat) : Nat :=
  if within o 0xA000 0xE000 then
    let n := (o - 0xA000) / 16
    match mget s.xlt.spaces n with
    | none => 0
    | some sp => if o % 16 = 0 then 2 ^ 31 + sp.comp else if o % 16 = 4 then (s.xlt.extents.filter (·.2.space == n)).length else 0
  else if within o 0x100000 0x200000 then
    match mget s.xlt.jobs ((o - 0x100000) / 16) with
    | none => 0
    | some j =>
      if o % 16 = 0 then 2 ^ 31 + j.comp else
      let half := fun (k : Nat) => ((j.pairs[k]?).map fun p => p.2 * 2 ^ 10 + p.1).getD 0
      let k := (o % 16 - 4) / 2
      half k + half (k + 1) * 2 ^ 16
  else if within o 0x200000 0x300000 then
    match mget s.xlt.extents ((o - 0x200000) / 16) with
    | none => 0
    | some e =>
      match o % 16 with
      | 0 => 2 ^ 31 + b2n e.draining * 2 ^ 29 + b2n e.hbm * 2 ^ 28 + (log2 e.size - 21) * 2 ^ 24 + e.space
      | 4 => e.offset / 2 ^ 21
      | 8 => if e.hbm then e.base else e.base / 2 ^ 21
      | _ => if e.hbm then 0 else e.tray
  else 0

/-- Words of the XLT block. -/
def xltWord (s : State) (o : Nat) : Nat :=
  if o < 0xC ∨ within o 0x1000 0xA000 then reg s (0x03000000 + o) else xltEntry s o

/-- Words of the SWX block. -/
def swxWord (s : State) (o : Nat) : Nat :=
  if o = 0x10 then s.xlt.combChanges * 256 + s.xlt.combOn
  else if o < 0x10 ∨ within o 0x100 0x140 ∨ within o 0x1000 0x1800 ∨ within o 0x100000 0x180000 ∨ within o 0x200000 0x208000 then
    reg s (0x02000000 + o)
  else 0

/-- Words of the DIR block (Tables 5-7 to 5-11). -/
def dirWord (s : State) (o : Nat) : Nat :=
  if o < 8 then reg s (0x04000000 + o)
  else if within o 0x1000 0x1400 then
    let a := (o - 0x1000) / 16
    match mget s.dir.apts a with
    | none => 0
    | some sp =>
      match o % 16 with
      | 0 => 2 ^ 31 + spaceComp s sp * 2 ^ 16 + sp
      | 4 => agentCount s a 2 * 2 ^ 16 + agentCount s a 1
      | 8 => sum ((s.dir.regions.filter fun r => r.2.space == sp && r.2.mode == 0).map fun r => r.2.size) / 2 ^ 20
      | _ => 0
  else if within o 0x10000 0x30000 then
    let ag := agentAt s ((o - 0x10000) / 4 / 512) ((o - 0x10000) / 4 % 512)
    ag.st * 2 ^ 30 + ag.cause * 2 ^ 28 + ag.ep
  else if within o 0x30000 0x50000 then
    match mget s.dir.regions ((o - 0x30000) / 32) with
    | none => 0
    | some r =>
      let w := fun (v : Nat) => if o % 8 = 0 then v % 2 ^ 32 else v / 2 ^ 32
      match o % 32 / 8 with
      | 0 =>
        if o % 8 = 0 then 2 ^ 31 + r.mode * 2 ^ 29 + b2n r.conf * 2 ^ 28 + log2 r.size * 2 ^ 22 + r.apt * 2 ^ 16 + r.space else 0
      | 1 => w r.base
      | 2 => w r.cairn
      | _ => w (b2n r.cwEn * 2 ^ 63 + r.cwAddr)
  else 0

/-- STATUS and ROLE words of a unit (Tables 6-10 to 6-12, 10-12, 10-13). -/
def unitStatus (s : State) (key : Nat) : Nat :=
  let u := eunit s key
  let haul := decide (128 ≤ key)
  let act := if haul then (haulOn s (key - 128)).length else (activeOn s key).length
  let par := (u.parent.map fun p => 0x80 + p % 128).getD 0
  if isTile key then
    b2n u.rstBusy * 2 ^ 31 + b2n u.failed * 2 ^ 30 + u.st * 2 ^ 28 + act * (if haul then 2 ^ 23 else 2 ^ 22) + par
  else if !u.formed then 0
  else if haul then b2n u.rstBusy * 2 ^ 31 + 2 ^ 30 + u.st * 2 ^ 28 + act * 2 ^ 23 + par
  else 2 ^ 31 + b2n u.rstBusy * 2 ^ 30 + u.st * 2 ^ 28 + act * 2 ^ 22 + par
def unitRole (s : State) (key : Nat) : Nat :=
  let u := eunit s key
  u.role * 2 ^ 28 + (if u.role = 0 then 0 else u.comp * 2 ^ 16) + u.gen

/-- A mask of units or tiles. -/
def maskOf (l : List Nat) : Nat := l.foldl (fun m n => m ||| 2 ^ n) 0

/-- Words of ENG_TBL (Table 8-14). -/
def tblWord (s : State) (t o : Nat) : Nat :=
  match gtable s t with
  | none => 0
  | some x =>
    let cur := curVer x
    match o with
    | 0x00 => 2 ^ 31 + x.vers.length * 2 ^ 28 + b2n cur.isNone * 2 ^ 27 + x.comp * 2 ^ 16
    | 0x04 => (cur.map (·.version)).getD 0
    | 0x08 => (cur.map fun v => verRefs s t v.version).getD 0
    | 0x0C => sum ((x.vers.filter (!·.current)).map fun v => verRefs s t v.version)
    | 0x10 => (x.vers.map (·.version)).foldl min (((x.vers.head?).map (·.version)).getD 0)
    | _ => 0

/-- Collective nodes owned, and standby copies held (ENG_COLL_NODES). -/
def collNodes (s : State) : Nat :=
  let ns := s.eng.descs.filter fun d => match d.work with
    | .node _ => true
    | _ => false
  (ns.filter (·.standby)).length * 2 ^ 16 + (ns.filter (!·.standby)).length

/-- Words of the ENG block. -/
def engWord (s : State) (o : Nat) : Nat :=
  if o < 0x400000 then
    let t := o / 0x10000
    match o % 0x10000 with
    | 0x04 => unitStatus s t
    | 0x08 => unitRole s t
    | 0x0C => maskOf ((s.eng.slots.filter fun p => p.1 / 4 == t).map (·.1 % 4))
    | _ => 0
  else if o < 0x404000 then
    let r := 64 + (o - 0x400000) / 0x100
    let q := o % 0x100
    if q = 4 then unitStatus s r
    else if q = 8 then unitRole s r
    else if !(eunit s r).formed then 0
    else if within q 0x10 0x20 then maskOf (eunit s r).members / 2 ^ (8 * (q - 0x10)) % 2 ^ 32
    else if within q 0x20 0x28 then maskOf (tilesUnder s r) / 2 ^ (8 * (q - 0x20)) % 2 ^ 32
    else 0
  else if within o 0x810000 0x812000 then tblWord s ((o - 0x810000) / 32) (o % 32)
  else match o with
    | 0x800000 => reg s 0x05800000
    | 0x800010 => reg s 0x05800010
    | 0x800020 => reg s 0x05800020
    | 0x800008 => maskOf ((List.range 64).filter fun t => (eunit s t).failed) % 2 ^ 32
    | 0x80000C => maskOf ((List.range 64).filter fun t => (eunit s t).failed) / 2 ^ 32
    | 0x800014 => collNodes s
    | 0x800030 => s.eng.lastErr
    | _ => 0

/-- HAUL_CB_STATE: codebooks resident and KiB of cache in use (R311); hidden from every path but the management network. -/
def cbState (s : State) (full : Bool) (h : Nat) : Nat :=
  if conf s (eunit s (128 + topOf s (128 + h) % 128)).comp && !full then 0 else
  let bs := s.haul.books.filter (·.engine == h)
  bs.length * 2 ^ 16 + ceilDiv (sum (bs.map (·.bytes.length))) 1024

/-- Words of the HAUL block. -/
def haulWord (s : State) (full : Bool) (o : Nat) : Nat :=
  if o < 0x200000 then
    let h := o / 0x10000
    match o % 0x10000 with
    | 0x04 => unitStatus s (128 + h)
    | 0x08 => unitRole s (128 + h)
    | 0x0C => cbState s full h
    | _ => 0
  else if within o 0x400000 0x402000 then
    let r := 160 + (o - 0x400000) / 0x100
    let q := o % 0x100
    if q = 4 then unitStatus s r
    else if q = 8 then unitRole s r
    else if !(eunit s r).formed then 0
    else if within q 0x10 0x18 then maskOf ((eunit s r).members.map (· - 128)) / 2 ^ (8 * (q - 0x10)) % 2 ^ 32
    else if q = 0x18 then maskOf ((tilesUnder s r).map (· - 128))
    else 0
  else if o = 0x800000 then reg s 0x06800000
  else 0

/-- Words of TIER_QUOTA and TIER_RC entries (Tables 11-15, 11-16). -/
def quotaWord (s : State) (k o : Nat) : Nat :=
  let c := comp s k
  if c.st = 0 ∨ c.st = 3 then 0
  else if o < 0x10 then c.hbmQ.getD (o / 4) 0
  else if o = 0x10 then c.trayQ
  else if within o 0x20 0x30 then c.hbmUse.getD ((o - 0x20) / 4) 0
  else if o = 0x30 then c.trayUse
  else 0
def rcWord (s : State) (n o : Nat) : Nat :=
  match mget s.cards n with
  | none => 0
  | some c =>
    if c.st = 3 then 0 else
    match o with
    | 0x00 =>
      2 ^ 31 + (if c.st = 4 then 0 else c.st) * 2 ^ 29 + b2n c.resident * 2 ^ 28 + c.comp * 2 ^ 16 + c.lastStatus
    | 0x04 => if conf s c.comp then 0 else c.passesDone
    | 0x08 => min c.depthChanges (2 ^ 24 - 1) * 256 + (if c.resident then 0 else c.depth)
    | 0x0C => if conf s c.comp then 0 else c.layerNow
    | 0x10 => rcTag c.raw % 2 ^ 32
    | 0x14 => rcTag c.raw / 2 ^ 32
    | _ => 0

/-- Words of the TIER block. -/
def tierWord (s : State) (o : Nat) : Nat :=
  if o < 8 then reg s (0x07000000 + o)
  else if o = 8 then poolPages s
  else if within o 0x1000 0x2000 then quotaWord s ((o - 0x1000) / 64) (o % 64)
  else if within o 0x2000 0x2400 then rcWord s ((o - 0x2000) / 64) (o % 64)
  else 0

/-- Words of the CMD block (R365). -/
def cmdWord (s : State) (o : Nat) : Nat :=
  if o = 8 then s.cmd.cause
  else if o < 0x30 ∨ within o 0x10000 0x12000 then reg s (0x08000000 + o)
  else if within o 0x20000 0x21000 then
    let q := queue s ((o - 0x20000) / 64) ((o - 0x20000) / 16 % 4)
    match o % 16 with
    | 0 => q.depth
    | 4 => q.next
    | 8 => oldest q
    | _ => q.running.length
  else if within o 0x100000 0x200000 then
    match findRing s ((o - 0x100000) / 16 / 1024) ((o - 0x100000) / 16 % 1024) with
    | none => 0
    | some r =>
      match o % 16 with
      | 0 => 2 ^ 31 + r.esize * 2 ^ 24 + r.nent * 2 ^ 16 + r.space
      | 8 => r.offset % 2 ^ 32
      | 12 => r.offset / 2 ^ 32
      | _ => 0
  else 0

/-- SEC_STATUS.UNMIRRORED: a CONFIDENTIAL composition marked for mirroring has no Partner port with MACSEC_REQ (R420). -/
def unmirrored (s : State) : Bool := s.comps.any fun c => c.2.st != 0 && c.2.conf && mirrorBit s c.1 && !mirrorOk s c.1

/-- Key generations that a composition holds, in order of installation (R387). -/
def kgens (s : State) (k : Nat) : List Nat := (s.sec.keys.filter (·.1 == k)).map (·.2.1)

/-- The words at +0x00 and +0x04 of a SEC_COMP entry (Table 13-15). -/
def secComp0 (s : State) (k : Nat) : Nat :=
  let c := comp s k
  b2n (c.st != 0) * 2 ^ 31 + c.st * 2 ^ 28 + b2n c.conf * 2 ^ 27
def secComp4 (s : State) (k : Nat) : Nat := mgetD s.sec.kgenHigh k 0

/-- Words of the SEC block (Tables 13-11 to 13-15). -/
def secWord (s : State) (o : Nat) : Nat :=
  if within o 0x1000 0x1800 then
    let k := (o - 0x1000) / 32
    let g := kgens s k
    match o % 32 with
    | 0 => secComp0 s k
    | 4 => secComp4 s k
    | 8 => g.getD 0 0 + g.getD 1 0 * 2 ^ 16
    | 12 => g.getD 2 0 + g.getD 3 0 * 2 ^ 16
    | _ => 0
  else match o with
    | 0x00 =>
      b2n s.sec.owned * 2 ^ 31 + b2n s.sec.confSeen * 2 ^ 30 + b2n s.sec.capsule.isSome * 2 ^ 29 + b2n s.sec.pufOk * 2 ^ 28 +
        b2n (unmirrored s) * 2 ^ 27 + s.sec.sessions.length * 2 ^ 16 + (s.sec.image.map (·.svn)).getD 0
    | 0x04 => (s.sec.capsule.map fun c => c.capSvn * 2 ^ 16 + c.minFwSvn).getD 0
    | 0x08 => s.sec.nodeId % 2 ^ 32
    | 0x0C => s.sec.nodeId / 2 ^ 32
    | 0x10 => reg s 0x09000010
    | 0x18 => reg s 0x09000018
    | _ => 0

/-- Bytes of fault record k (Table 15-2). -/
def faultBytes (r : FaultRec) (k : Nat) : List Byte :=
  le 1 r.cls ++ le 1 r.cause ++ le 1 ((r.comp.map (0x80 + ·)).getD 0) ++ [0] ++ le 4 r.object ++ le 8 r.tEvt ++ le 4 r.counter ++
    le 4 k ++ le 8 r.detail

/-- Causes of a class (Table 17-11). -/
def causeCount (cls : Nat) : Nat := [0, 3, 5, 1, 2, 3, 2, 3, 3, 7, 2, 2, 1, 1, 1, 1].getD cls 0

/-- Status that a fault reports, and the address of its counter (Tables 15-1, 17-12). -/
def causeStatus (cls cause : Nat) : Nat :=
  match cls with
  | 4 => 0x60
  | 5 => if cause = 1 then 0 else 0x20
  | 6 => 0x40
  | 8 => 0x21
  | _ => 0
def causeCtr (cls cause : Nat) : Nat :=
  match cls with
  | 5 => if cause = 1 then 0x02000410 else if cause = 2 then 0x07000410 else 0x04000440
  | 7 => 0x04000438
  | 8 => 0x03000450
  | 10 => 0x0A000418
  | 13 => 0x0A000438
  | _ => if cls ∈ [1, 2, 3, 6] then (Config.causeCounter cls cause).toNat else 0

/-- Words of FLT_CAUSE_TAB (Table 17-12). -/
def causeWord (c k : Nat) (high : Bool) : Nat :=
  if c = 0 ∨ k = 0 ∨ causeCount c < k then 0
  else if high then 2 ^ 31 + c * 2 ^ 16 + k * 2 ^ 8 + causeStatus c k
  else causeCtr c k

/-- FLT_STATUS (Table 15-11). -/
def fltStatus (s : State) : Nat :=
  let ps := partnerPorts s
  b2n s.flt.paired * 2 ^ 31 + b2n s.flt.fenced * 2 ^ 30 + b2n s.flt.stopped * 2 ^ 29 + b2n s.flt.takeover * 2 ^ 28 +
    b2n s.flt.halfClash * 2 ^ 27 + b2n (decide ((ps.map crestOf).eraseDups.length = 1)) * 2 ^ 26 + min 255 ps.length * 2 ^ 8 +
    s.flt.lastClass

/-- Words of the FLT block. -/
def fltWord (s : State) (o : Nat) : Nat :=
  if within o 0x10000 0x30000 then
    let n := (o - 0x10000) / 32
    match mget s.flt.log n with
    | none => 0
    | some r => fld (faultBytes r (n + 4096 * ((s.flt.logWr - 1 - n) / 4096))) (o % 32) 4
  else if within o 0x30000 0x38000 then causeWord ((o - 0x30000) / 2048) ((o - 0x30000) / 8 % 256) (o % 8 == 4)
  else match o with
    | 0x18 => fltStatus s
    | 0x20 => s.flt.partnerEp
    | 0x28 => s.flt.logWr % 2 ^ 32
    | 0x2C => s.flt.logWr / 2 ^ 32
    | 0x34 => s.flt.second.phase * 2 ^ 30 + s.flt.second.mismatchLanes
    | 0x38 => s.flt.second.cleanRun
    | 0x40 => s.flt.second.mismatchW % 2 ^ 32
    | 0x44 => s.flt.second.mismatchW / 2 ^ 32
    | _ => if o < 0x18 ∨ o = 0x30 then reg s (0x0A000000 + o) else 0

/-- Words of the CAP block (R108). -/
def capWord (s : State) (o : Nat) : Nat :=
  let w := fun (v : Nat) => if o % 8 = 0 then v % 2 ^ 32 else v / 2 ^ 32
  if o < 8 then reg s (0x0B000000 + o)
  else if o < 0x10 then w ((s.sw.capture.map (·.offset)).getD 0)
  else if o < 0x18 then w ((s.sw.capture.map (·.size)).getD 0)
  else if o < 0x20 then w s.sw.capIdx
  else 0

/-- Words of the CLK block (Tables 2-11, 16-14, 17-6 to 17-10). -/
def clkWord (s : State) (o : Nat) : Nat :=
  match o with
  | 0x00 => s.dev.refs
  | 0x04 => s.dev.plls
  | 0x80 => b2n s.dev.thermLock * 2 ^ 31 + reg s 0x0C000080
  | 0x84 => b2n s.dev.thermTrip * 2 ^ 31 + s.dev.hbmWarn * 2 ^ 16 + s.dev.thermWarn
  | 0x100 => s.clock.tb % 2 ^ 32
  | 0x104 => s.clock.tb / 2 ^ 32 % 2 ^ 32
  | 0x108 => s.clock.srcPort * 2 ^ 8 + b2n s.clock.offsetAlarm * 8 + s.clock.tbState
  | _ =>
    if within o 0x10 0x44 then
      let d := (o - 0x10) / 4
      unsgn 16 (s.dev.diePeak.getD d 0) * 2 ^ 16 + unsgn 16 (s.dev.dieNow.getD d 0)
    else if within o 0x50 0x80 then
      let d := (o - 0x50) / 4
      if d < hbmStacks s then s.dev.hbmPeak.getD d 0 % 256 * 256 + s.dev.hbmNow.getD d 0 % 256 else 0
    else if within o 0x90 0xAC then
      let b := (o - 0x90) / 4
      s.dev.pwrPeak.getD b 0 % 65536 * 2 ^ 16 + s.dev.pwrNow.getD b 0 % 65536
    else 0

/-- The word at an address, live, with no side effect; a place without a register reads zero (R9). `full`: the management path, on
which confidential mode does not hide HAUL_CB_STATE (Table 17-5). -/
def liveWord (full : Bool) (s : State) (a : Nat) : Nat :=
  let b := a / 2 ^ 24
  let o := a % 2 ^ 24
  if o = 0xFFFF00 ∧ b < 13 then infoWord b
  else if isCounter a then ctr s a % 2 ^ 32
  else if isCounter (a - a % 8) then ctr s (a - a % 8) / 2 ^ 32 % 2 ^ 32
  else match b with
    | 0 => hutWord s o
    | 1 => if o < 0x600000 then portWord s (o / 0x10000) (o % 0x10000) else 0
    | 2 => swxWord s o
    | 3 => xltWord s o
    | 4 => dirWord s o
    | 5 => engWord s o
    | 6 => haulWord s full o
    | 7 => tierWord s o
    | 8 => cmdWord s o
    | 9 => secWord s o
    | 10 => fltWord s o
    | 11 => capWord s o
    | 12 => clkWord s o
    | _ => 0

/-! ### Reading -/

/-- Drops a latch. -/
def unlatch (path : RegPath) (a : Nat) (s : State) : State :=
  { s with latched := s.latched.filter fun l => !(decide (l.1 = path) && l.2.1 == a) }

/-- Reads a word on a path: the low word of a 64-bit register latches its high word and clears an RC counter (R8, R472), the next
read of the high word returns the latched value. The read-out path clears nothing. -/
def readWord (path : RegPath) (full : Bool) (a : Nat) (s : State) : Nat × State :=
  if isWide a then
    let v := liveWord full s a
    let s' := unlatch path (a + 4) s
    let s' := { s' with latched := s'.latched ++ [(path, a + 4, liveWord full s (a + 4))] }
    (v, if isCounter a && decide (path ≠ .readout) then { s' with ctrs := mdel s'.ctrs a } else s')
  else if isWide (a - 4) ∧ 4 ≤ a then
    match s.latched.find? fun l => decide (l.1 = path) && l.2.1 == a with
    | some l => (l.2.2, unlatch path a s)
    | none => (liveWord full s a, s)
  else (liveWord full s a, s)

/-- Reads `n` words from an address, all at one instant (R471). -/
def readWords (path : RegPath) (full : Bool) : Nat → Nat → State → List Nat × State
  | 0, _, s => ([], s)
  | n + 1, a, s =>
    let (v, s) := readWord path full a s
    let (vs, s) := readWords path full n (a + 4) s
    (v :: vs, s)

/-! ### The port rules (R398) -/

/-- Does an entry in use name a logical port of a physical port? -/
def portNamed (s : State) (p : Nat) : Bool :=
  let here := fun (l : Nat) => l / 8 == p
  (List.range 8).any (fun f => epValid s (8 * p + f)) ||
  (List.range 1024).any (fun i => let w := reg s (0x03008000 + 4 * i); bit w 31 && here (bits w 9 0)) ||
  (List.range 256).any (fun t => trayValid s t && (trayPorts s t).any here) ||
  (List.range 64).any (fun g => (trunkMembers s g).any here) ||
  (List.range 256).any (fun i =>
    let l := reg s (0x08010000 + 32 * i + 4) % 1024
    bit (reg s (0x08010000 + 32 * i)) 31 && l != 0x3FF && here l)

/-- Is a write of PORT_CFG refused (R43, R398, Table 16-1)? -/
def portCfgRefused (s : State) (p v : Nat) : Bool :=
  let old := reg s (portReg p 0)
  let m := bits old 2 0
  let n := bits v 2 0
  let brk := bits old 5 4 != bits v 5 4
  (m != n && m != 0 && n != 0) ||
  (m != 0 && (brk || bits old 11 10 != bits v 11 10 || bit old 9 != bit v 9)) ||
  (n == 2 && (brk || (List.range 8).any fun f => isLport s (8 * p + f) && !isKmt s (8 * p + f))) ||
  (n != 0 && n != m && !bit s.dev.refs (p / 12)) ||
  (brk && portNamed s p)

/-- Is a write of PORT_LCFG refused (R398)? -/
def portLcfgRefused (s : State) (lp v : Nat) : Bool :=
  (bit v 0 != isKmt s lp && modeOf s lp != 0) || (bit v 3 && (lport s lp).txSa == [])

/-- PORT_CFG is written (R43, R402): a new BREAKOUT resets PORT_LCFG; MODE OFF gives up the links; a MODE set starts training. -/
def setPortCfg (p v : Nat) (s : State) : State :=
  let old := reg s (portReg p 0)
  let s := setReg (portReg p 0) v s
  let s := if bits old 5 4 = bits v 5 4 then s
    else each (List.range 8) (fun f s => setLport (8 * p + f) (fun _ => {}) (setReg (portReg p (0x20 + 4 * f)) 0 s)) s
  if bits old 2 0 = bits v 2 0 then s
  else if bits v 2 0 = 0 then modeOff p s
  else each (lportsOf s p) (fun lp s => setLport lp (fun l => { l with st := if l.st = 7 then 7 else 2, downAt := some s.clock.clk }) s) s

/-! ### What a write of a word does -/

/-- Registers of path M (Table 17-3). -/
def isM (a : Nat) : Bool :=
  [0x18, 0x30, 0x03000008, 0x04000008, 0x08000000, 0x09000010, 0x0A000000, 0x0A000030].contains a ||
  within a 0x02001000 0x02001800 || within a 0x02100000 0x02180000 || within a 0x03001000 0x03007400 ||
  within a 0x03008000 0x0300A000 || within a 0x08000010 0x0800001C || within a 0x08000020 0x08000030 ||
  within a 0x08010000 0x08012000 || within a 0x0A000008 0x0A000018

/-- Mask of the writable fields of a configuration word that is stored as written, zero for none. -/
def wordMask (s : State) (a : Nat) : Nat :=
  if within a 0x01000000 0x01600000 then
    match a % 0x10000 with
    | 0x00 => 0xE37
    | 0x04 => 0xFFFF
    | 0x10 => 0xFFFFFFFF
    | 0x14 => 0x00FFFF03
    | 0x18 => 0xFFFFFF3F
    | o => if within o 0x20 0x40 ∧ isLport s (8 * (a / 0x10000 % 256) + (o - 0x20) / 4) then 0xF else 0
  else if within a 0x02001000 0x02001800 then 0x83FF83FF
  else if within a 0x02100000 0x02180000 then
    if a % 128 < 100 then 0xFFFFFFFF else if a % 128 = 100 then 0x13F else 0
  else if within a 0x03001000 0x03007000 then
    match a % 32 with
    | 0 => 0xBF03FFFF
    | 4 => 0x0FFF0FFF
    | 8 => 0xFFFF
    | 12 => 0
    | _ => 0xFFFFFFFF
  else if within a 0x03007000 0x03007400 then 0xFF
  else if within a 0x03008000 0x03009000 then 0x800003FF
  else if within a 0x03009000 0x0300A000 then
    if a % 16 = 0 then 0x8003FFFF else if a % 16 = 4 then 0x33F else 0x03FF03FF
  else if within a 0x08010000 0x08012000 then
    match a % 32 with
    | 0 => 0xB80F003F
    | 4 => 0x3FF
    | o => if 16 ≤ o then 0xFFFFFFFF else 0
  else match a with
    | 0x14 => 0xF
    | 0x02000000 => 0xFF
    | 0x02000004 => 0x1FFFFF
    | 0x02000008 => 0xFFFFFF
    | 0x0200000C => 0xFFFFFFFF
    | 0x03000000 => 0xFFFFFFFF
    | 0x03000004 => 0x00FFFF01
    | 0x03000008 => 0x3FFFF
    | 0x04000000 => 0xFFFFFFFF
    | 0x04000004 => 0x3FFF
    | 0x05800000 => 0xFFFF0003
    | 0x05800010 => 3
    | 0x05800020 => 0xFF000003
    | 0x06800000 => 0xFFF00007
    | 0x07000000 => 0x7F7F7F7F
    | 0x07000004 => 0x000F0F01
    | 0x08000000 => 0x00FFF001
    | 0x0800000C => 0xFFF
    | 0x08000018 => 0xFFFFFFFF
    | 0x08000020 => 0xFFFFFFFF
    | 0x08000024 => 0xFFFFFFFF
    | 0x08000028 => 0xFFFFFFFF
    | 0x0800002C => 0xFFFFFFFF
    | 0x09000010 => 0xFFFF
    | 0x0A000000 => 0xFFFFFF03
    | 0x0A000030 => 0xFFFFFFFF
    | 0x0B000000 => 0xFFFF0007
    | 0x0B000004 => 0xFFFFFF
    | _ => 0

/-- Does a number lie in a range? -/
def inRange (v lo hi : Nat) : Bool := decide (lo ≤ v) && decide (v ≤ hi)

/-- Is the word free of reserved encodings and broken relations (R503)? The word has its reserved fields masked already. -/
def wordOk (s : State) (a v : Nat) : Bool :=
  if within a 0x01000000 0x01600000 then
    match a % 0x10000 with
    | 0x00 => bits v 11 10 != 3 && decide (bits v 2 0 ≤ 4)
    | 0x10 => decide (1 ≤ bits v 15 12) && decide (2 ≤ bits v 11 6) && decide (1 ≤ bits v 5 0)
    | 0x14 => decide (1 ≤ bits v 23 16)
    | 0x18 => decide (1 ≤ bits v 30 24) && decide (bits v 15 8 < bits v 23 16) && inRange (bits v 5 0) 1 50
    | _ => true
  else if within a 0x03001000 0x03007000 then
    if a % 32 = 4 then decide (bits v 11 0 ≤ bits v 27 16) else if a % 32 = 8 then decide (1 ≤ v) else true
  else if within a 0x03007000 0x03007400 then bits v 7 6 != 3
  else if within a 0x08010000 0x08012000 then a % 32 != 0 || bits v 29 28 != 3
  else match a with
    | 0x02000004 => inRange (bits v 20 16) 1 16
    | 0x02000008 => bits v 23 16 &&& 0xC3 == 0
    | 0x0200000C =>
      decide (bits v 23 16 < bits v 31 24) && decide (2 ≤ bits v 15 9) && inRange (bits v 8 4) 1 20 && bits v 3 2 != 3 && bits v 1 0 != 3
    | 0x03000000 => inRange (bits v 31 24) 1 100 && decide (1 ≤ bits v 23 8) && decide (1 ≤ bits v 7 0)
    | 0x03000004 => inRange (bits v 23 16) 1 100 && decide (bits v 15 8 < bits v 23 16)
    | 0x04000000 => decide (1 ≤ bits v 31 24) && decide (1 ≤ bits v 23 16) && decide (1 ≤ bits v 15 8) && decide (1 ≤ bits v 7 0)
    | 0x04000004 => inRange v 100 10000
    | 0x05800000 => decide (1 ≤ bits v 31 16)
    | 0x05800020 => decide (1 ≤ bits v 31 24)
    | 0x06800000 => decide (1 ≤ bits v 31 24) && decide (1 ≤ bits v 23 20)
    | 0x07000000 =>
      decide (bits v 30 24 + bits v 22 16 + bits v 14 8 + bits v 6 0 ≤ 64) && decide (4 ≤ bits v 30 24) && decide (1 ≤ bits v 6 0)
    | 0x07000004 => inRange (bits v 19 16) 1 8 && inRange (bits v 11 8) 1 8
    | 0x08000000 => inRange (bits v 23 12) 64 2048
    | 0x09000010 => decide (1 ≤ bits v 15 8) && decide (1 ≤ bits v 7 0)
    | 0x0A000000 =>
      inRange (bits v 31 24) 11 63 && inRange (bits v 23 16) 6 (bits v 31 24 - 5) && decide (1 ≤ bits v 15 8) &&
        !(s.flt.paired && bit v 1 != bit (reg s a) 1)
    | 0x0A000030 => inRange (bits v 31 16) 1 400 && decide (1 ≤ bits v 15 0)
    | 0x0B000004 => decide (1 ≤ v)
    | 0x0C000080 => inRange (bits v 23 16) 60 95 && inRange (bits v 15 8) 60 105
    | _ => true

/-- Does composition k hold a space, a unit in a role or a loaded Route Card here (R420)? -/
def mirrorStuck (s : State) (k : Nat) : Bool :=
  s.xlt.spaces.any (fun x => x.2.comp == k && !x.2.shadow) || s.eng.units.any (fun u => u.2.role != 0 && u.2.comp == k) ||
    s.cards.any (fun c => c.2.comp == k)

/-- Mask of a writable 64-bit register at its low address, zero for none. -/
def wideMask (a : Nat) : Nat :=
  if a % 8 ≠ 0 then 0
  else if a = 0x20 ∨ a = 0x0A000008 ∨ a = 0x0A000010 then 2 ^ 64 - 1
  else if within a 0x02000100 0x02000140 then 2 ^ 56 - 1
  else if within a 0x02200000 0x02208000 then 0xFF83FFFFFFFFFFFF
  else if a = 0x08000010 then 2 ^ 48 - 1
  else 0

/-- May the 64-bit register be written at all now (R95, R443)? -/
def wideOpen (s : State) (a : Nat) : Bool :=
  if within a 0x02000100 0x02000140 then (List.range 96).all fun p => bits (reg s (portReg p 0)) 2 0 == 0
  else if a = 0x0A000008 then !s.flt.paired
  else true

/-- Is the whole value a legal one (R95, R420)? -/
def wideOk (s : State) (a v : Nat) : Bool :=
  if within a 0x02000100 0x02000140 then
    let n := (a - 0x02000100) / 8
    let of := fun (i : Nat) => if i = n then v else carve s i
    let credit := fun (i : Nat) => bits (of i) 55 44
    let resv := fun (i : Nat) => bits (of i) 43 26
    decide (sum ((List.range 8).map fun i => 24 * credit i + resv i) ≤ 393216) &&
      (List.range 8).all fun i => decide (24 * credit i + resv i ≤ bits (of i) 25 7) && decide (256 ≤ credit i)
  else if a = 0x0A000010 then
    let diff := v ^^^ reg64 s a
    (List.range 64).all fun k => !bit diff k || !mirrorStuck s k
  else true

/-- A read-out of frozen state starts over HUT_FRZ_ADDR (R464): DENIED outside BIVOUAC. -/
def startReadout (addr : Nat) (s : State) : State :=
  if s.dev.devState ≠ .bivouac then { s with dev.roStat := 0x13, dev.frzData := 0 }
  else { s with dev.roAddr := addr, dev.roBusy := true, dev.roStat := 1 }

/-- A quota word is written (R315): refused as that rule states. -/
def writeQuota (k o v : Nat) (s : State) : Nat × State :=
  let c := comp s k
  if c.st = 0 ∨ c.st = 3 then (0x11, s)
  else if o = 0x10 then
    if v ≥ 2 ^ 20 ∨ v * 512 < c.trayUse then (0x11, s) else (0, setComp k (fun c => { c with trayQ := v }) s)
  else
    let i := o / 4
    let others := sum ((s.comps.filter (·.1 != k)).map fun x => x.2.hbmQ.getD i 0)
    if v ≥ 2 ^ 18 ∨ v < c.hbmUse.getD i 0 ∨ poolPages s < others + v then (0x11, s)
    else (0, setComp k (fun c => { c with hbmQ := c.hbmQ.set i v }) s)

/-- HUT_RST_CTL (Table 16-11, R459, R467): a reset begins 10 µs after the reply. -/
def writeRstCtl (v : Nat) (s : State) : Nat × State :=
  if bits v 31 16 ≠ 0x5EED then (0x11, s)
  else if bit v 1 then
    let r : ResetReq := { cold := true, cause := 3, due := s.clock.clk + 10000 }
    (0, if (s.dev.resetReq.map (·.cold)).getD false then s else { s with dev.resetReq := some r })
  else if bit v 0 then
    let r : ResetReq := { cold := false, cause := 4, due := s.clock.clk + 10000 }
    (0, if s.dev.resetReq.isSome || decide (s.dev.stage < 6) || recovery s || s.dev.warm then s else { s with dev.resetReq := some r })
  else (0, s)

/-- CLK_THERM_CFG (Table 17-8, R475). -/
def writeTherm (v : Nat) (s : State) : Nat × State :=
  if !wordOk s 0x0C000080 v then (0x11, s) else
  let locked := s.dev.thermLock
  let s := if locked then s else setReg 0x0C000080 (v &&& 0x00FFFF00) s
  (0, { s with dev.thermLock := if s.dev.thermLockSet then s.dev.thermLock else bit v 31, dev.thermLockSet := true })

/-- Sets CFG_REJ of a port (R398). -/
def rejectCfg (p : Nat) (s : State) : State := setReg (portReg p 8) 1 s

/-- The port of a word that R398 may refuse: PORT_CFG, PORT_LCFG or PORT_KMT_CFG. -/
def portRuleRefuses (s : State) (a v : Nat) : Bool :=
  let p := a / 0x10000 % 256
  match a % 0x10000 with
  | 0x00 => portCfgRefused s p v
  | 0x10 => bits v 31 16 != etypeOf s (8 * p) && bits (reg s (portReg p 0)) 2 0 != 0
  | o => within o 0x20 0x40 && isLport s (8 * p + (o - 0x20) / 4) && portLcfgRefused s (8 * p + (o - 0x20) / 4) v

/-- A pin of an adaptation that has not run since the reset is in force as it is written (R31). -/
def pinAtStart (a v : Nat) (s : State) : State :=
  if a = 0x0200000C then
    each (List.range 4) (fun c s =>
      if bit s.xlt.combRun c then s else
      let on := b2n (bits v 1 0 == 1) + 2 * b2n (bits v 3 2 == 1)
      { s with xlt.combOn := s.xlt.combOn - bits s.xlt.combOn (2 * c + 1) (2 * c) * 4 ^ c + on * 4 ^ c }) s
  else if a = 0x03000004 && !s.xlt.rateRun then { s with xlt.rateFixed := bit v 0 }
  else s

/-- A plain configuration word is written. -/
def writePlain (a v : Nat) (s : State) : Nat × State :=
  let m := wordMask s a
  if m = 0 then (0, s) else
  let v := v &&& m
  if !wordOk s a v then (0x11, s)
  else if within a 0x01000000 0x01600000 && portRuleRefuses s a v then (0x11, rejectCfg (a / 0x10000 % 256) s)
  else if within a 0x01000000 0x01600000 ∧ a % 0x10000 = 0 then (0, setPortCfg (a / 0x10000 % 256) v s)
  else (0, pinAtStart a v (setReg a v s))

/-- A word of a writable 64-bit register at low address `a` is written (R8). -/
def writeWide (path : RegPath) (a v : Nat) (high : Bool) (s : State) : Nat × State :=
  if !wideOpen s a then (0x11, s)
  else if !high then
    (0, { s with heldLow := (s.heldLow.filter fun l => !(decide (l.1 = path) && l.2.1 == a + 4)) ++ [(path, a + 4, v)] })
  else
    let low := ((s.heldLow.find? fun l => decide (l.1 = path) && l.2.1 == a + 4).map (·.2.2)).getD (reg s a)
    let full := (low + v * 2 ^ 32) &&& wideMask a
    if !wideOk s a full then (0x11, s) else
    let s := { s with heldLow := s.heldLow.filter fun l => !(decide (l.1 = path) && l.2.1 == a + 4) }
    let s := setReg (a + 4) (full / 2 ^ 32) (setReg a (full % 2 ^ 32) s)
    (0, if a = 0x20 then startReadout full s else s)

/-- Writes a word on a path (R469, R473): status and state; a status other than OK leaves the state, but for CFG_REJ of R398. `m`: the
path reaches registers of path M. -/
def writeWord (m : Bool) (path : RegPath) (a v : Nat) (s : State) : Nat × State :=
  let o := a % 2 ^ 24
  if a % 4 ≠ 0 then (0x11, s)
  else if 0x0D000000 ≤ a then (0x12, s)
  else if isM a && !m then (0x13, s)
  else if a = 0x0B000000 ∧ !m ∧ bit v 17 ≠ bit (reg s a) 17 then (0x13, s)
  else if within a 0x07001000 0x07002000 ∧ o % 64 ≤ 0x10 then
    let k := (o - 0x1000) / 64
    if v = quotaWord s k (o % 64) then (0, s) else if !m then (0x13, s) else writeQuota k (o % 64) v s
  else if wideMask a ≠ 0 then writeWide path a v false s
  else if 4 ≤ a ∧ wideMask (a - 4) ≠ 0 then writeWide path (a - 4) v true s
  else if within a 0x01000000 0x01600000 ∧ a % 0x10000 = 8 then
    (0, if bit v 0 then setReg a 0 s else s)
  else if within a 0x01000000 0x01600000 ∧ a % 0x10000 = 0x1C then (0, retrain (a / 0x10000 % 256) v s)
  else if within a 0x05000000 0x05400000 ∧ a % 0x10000 = 0 then
    (0, if bit v 31 then resetEngUnit (o / 0x10000) s else s)
  else if within a 0x05400000 0x05404000 ∧ a % 0x100 = 0 then
    (0, if bit v 31 then resetEngUnit (64 + (o - 0x400000) / 0x100) s else s)
  else if within a 0x06000000 0x06200000 ∧ a % 0x10000 = 0 then
    (0, if bit v 31 then settleCards (resetHaulUnit (o / 0x10000) s) else s)
  else if within a 0x06400000 0x06402000 ∧ a % 0x100 = 0 then
    (0, if bit v 31 then settleCards (resetHaulUnit (32 + (o - 0x400000) / 0x100) s) else s)
  else match a with
    | 0x18 => writeRstCtl v s
    | 0x30 => (0, if s.dev.jtagRoSet then s else { s with dev.jtagRo := bit v 0, dev.jtagRoSet := true })
    | 0x04000008 => (0, evictAgent v s)
    | 0x08000008 => (0, { s with cmd.cause := s.cmd.cause - (s.cmd.cause &&& v) })
    | 0x0C000080 => writeTherm v s
    | 0x0C000084 =>
      (0, { s with dev.thermWarn := s.dev.thermWarn - (s.dev.thermWarn &&& bits v 12 0)
                   dev.hbmWarn := s.dev.hbmWarn - (s.dev.hbmWarn &&& bits v 27 16) })
    | 0x0C000108 => (0, if bit v 3 then { s with clock.offsetAlarm := false } else s)
    | _ => writePlain a v s

/-- Writes words in ascending order, all or none (R351, R473). A word that R398 refuses sets CFG_REJ as the only effect. -/
def writeWords (m : Bool) (path : RegPath) (s0 : State) : List (Nat × Nat) → State → Nat × State
  | [], s => (0, s)
  | (a, v) :: ws, s =>
    let r := writeWord m path a v s
    if r.1 = 0 then writeWords m path s0 ws r.2
    else
      let p := a / 0x10000 % 256
      let rej := within a 0x01000000 0x01600000 && r.1 == 0x11 && a % 4 == 0 && wordOk s a (v &&& wordMask s a) &&
        portRuleRefuses s a (v &&& wordMask s a)
      (r.1, if rej then rejectCfg p s0 else s0)

end Sys2Proof.Machine
end

