-- ==== Sys2Proof/Machine/Reset.lean ====
section
/-! DEFINITION. Resets, boot, recovery, Bivouac and its read-out, references, temperatures, power estimates, the timebase, JTAG
and SMBus (chapters 16 and 17, R79 to R81, R491, R497). -/

namespace Sys2Proof.Machine

/-! ### Values derived at boot (Table 13-3, R374) -/

/-- "DIK", "SEAL", "ALIAS". -/
def txtDik : List Byte := [0x44, 0x49, 0x4B]
def txtAlias : List Byte := [0x41, 0x4C, 0x49, 0x41, 0x53]

/-- Seed of the DIK, its public key, and NODE_ID (Table 13-3). -/
def dikSeed : List Byte := Config.sha3 (Config.deviceSecret ++ txtDik)
def dikPublic : List Byte := Config.mldsaPublic dikSeed
def nodeIdOf : Nat := leVal ((Config.sha3 dikPublic).take 8)

/-- D_fw, measurement 2 (Table 13-5). -/
def fwDigest (i : Image) : List Byte := Config.sha3 (i.hdr ++ i.body)

/-- Seed of the alias key (Table 13-3). -/
def aliasSeed (s : State) : List Byte :=
  Config.sha3 (Config.deviceSecret ++ ((s.sec.image.map fwDigest).getD []) ++ txtAlias)

/-- ERR code of an image that R374 does not accept (Tables 13-4, 16-8); none for one that it does. -/
def imageErr (i : Image) : Option Nat :=
  if i.magic ≠ 0x4B544649 ∨ i.iver ≠ 1 ∨ i.bodyLen % 64 ≠ 0 ∨ 33554432 < i.bodyLen ∨ i.body.length ≠ i.bodyLen ∨ !i.resvOk then some 0x05
  else if !Config.ikimosDigests.contains (Config.sha3 i.pubkey) then some 0x06
  else if !Config.mldsaVerify i.pubkey (fwDigest i) i.sig then some 0x07
  else if Config.sha3 i.body ≠ i.bodyDigest then some 0x08
  else none

/-- Does the capsule verify under the owner key (R379)? -/
def capsuleSigned (owner : List Byte) (c : Capsule) : Bool := c.resvOk && Config.mldsaVerify owner (Config.sha3 c.bytes) c.sig

/-- The capsule that the firmware applies (R379): signed by the sealed owner key, CAP_SVN not below the sealed one. -/
def goodCapsule (s : State) : Option Capsule :=
  match s.dev.flash.capsule, s.dev.flash.owner with
  | some c, some o => if s.sec.owned && capsuleSigned o c && decide (s.dev.flash.capSvn ≤ c.capSvn) then some c else none
  | _, _ => none

/-- The capsule's register writes are made (R379). -/
def applyWrites (c : Capsule) (s : State) : State :=
  each c.writes (fun w s => (writeWord true .capsule w.1 w.2.toNat s).2) s

/-! ### Resets (R457 to R459, Table 17-4) -/

/-- A device cold reset: everything but flash, pins and the thermal trip latch returns to its state at reset (Table 16-4). -/
def coldReset (cause : Nat) (s : State) : State :=
  let frozen := decide (s.dev.devState = .bivouac)
  { (State.reset) with
    dev := { part := s.dev.part, pwrOk := s.dev.pwrOk, porstLow := s.dev.porstLow, coreRstLow := s.dev.coreRstLow
             brown := s.dev.brown, pwrAt := s.dev.pwrAt, flash := s.dev.flash, thermTrip := s.dev.thermTrip, tapIr := s.dev.tapIr
             resetCause := 2 ^ cause + b2n frozen * 2 ^ 7 }
    clock := { clk := s.clock.clk }
    out := s.out, freeCtr := s.freeCtr, pending := s.pending }

/-- Registers that a warm reset keeps (Table 17-4). -/
def keptWarm (a : Nat) : Bool :=
  (decide (a < 0x01000000) && a != 0x20 && a != 0x24) || within a 0x09000000 0x0A000000 || within a 0x0A000000 0x0A000018 ||
    a == 0x0A000030 || within a 0x0C000000 0x0D000000

/-- Step 5 of a warm reset begins (R458): the capsule is applied again from its verified copy. -/
def warmGo (s : State) : State :=
  match s.sec.capsule with
  | some c => applyWrites c { s with dev.warmHeld := false }
  | none => { s with dev.warmHeld := false }

/-- A device warm reset, up to its step 4 and, unless CORE_RST_N holds it, into step 5 (R458, Table 17-4). -/
def warmReset (cause : Nat) (s : State) : State :=
  let frozen := decide (s.dev.devState = .bivouac)
  let s := setDevState .baseCamp s
  let keep : SMap Comp := s.comps.map fun c => (c.1,
    ({ st := b2n (c.1 == 0), hbmMs := c.2.hbmMs, trayMs := c.2.trayMs, hbmBytes := c.2.hbmBytes, trayBytes := c.2.trayBytes
       haulBytes := c.2.haulBytes, made := c.2.made } : Comp))
  let s : State := { s with
    dev := { s.dev with
      stage := 5, stageMs := (s.clock.clk - s.dev.bootStart) / 1000000, bootErr := 0, warm := true
      warmHeld := s.dev.coreRstLow, resetCause := 2 ^ cause + b2n frozen * 2 ^ 7, resetReq := none, frzInReset := false
      roBusy := false, roStat := 0, roAddr := 0, frzData := 0, jtagRead := none, plls := s.dev.plls / 16 * 16, drainAt := none
      coresDown := false }
    clock := { clk := s.clock.clk }
    regs := s.regs.filter fun r => keptWarm r.1
    ctrs := s.ctrs.filter fun c => within c.1 0x09000000 0x0A000000
    latched := [], heldLow := [], lports := [], sw := {}, rx := [], toHut := [], pages := [], reads := [], xlt := {}, dir := {}
    cmd := {}, comps := keep.filter fun c => c.2 != {}
    sec := { s.sec with keys := [], sessions := [], shakes := [] }
    eng := {}, haul := {}, cards := []
    flt := { log := s.flt.log, logWr := s.flt.logWr } }
  if s.dev.coreRstLow then s else warmGo s

/-- Is a warm reset request taken: not before BASE_CAMP of a boot or of another warm reset (R459), but for a warm reset that a
freeze has stopped, which only a reset leaves (R462)? -/
def takesWarm (s : State) : Bool :=
  !dead s && !recovery s && (if s.dev.warm then decide (s.dev.devState = .bivouac) else decide (6 ≤ s.dev.stage))

/-- PWR_OK_RISE (R445): the TAP resets and the 1 ms starts; a brown-out hold ends (R491). -/
def pwrOkRise (s : State) : State :=
  if s.dev.pwrOk then s else
  { s with dev.pwrOk := true, dev.brown := false, dev.pwrAt := s.clock.clk, dev.tapIr := 0, dev.resetCause := 1 }

/-- PWR_OK_FALL (R444): cold reset held; THERM_TRIP_N is released (R479). -/
def pwrOkFall (s : State) : State :=
  let s := coldReset 0 { s with dev.pwrOk := false }
  { s with dev.thermTrip := false }

/-- BROWN_OUT (R491): as if PWR_OK had fallen, until PWR_OK has been low and then high. -/
def brownOut (s : State) : State :=
  if s.dev.pwrOk then
    let s := coldReset 0 { s with dev.brown := true }
    { s with dev.thermTrip := false }
  else s

/-- PORST_N_ASSERT (R457). -/
def porstNAssert (s : State) : State :=
  if s.dev.pwrOk && !s.dev.brown then coldReset 1 { s with dev.porstLow := true } else { s with dev.porstLow := true }

/-- INTERNAL_RESET_END (R445, R496): PORST_N is released and PWR_OK has been high for 1 ms; the boot ROM starts at stage ROM. -/
def internalResetEnd (smbAddr : Nat) (s : State) : State :=
  if !s.dev.pwrOk ∨ s.dev.brown ∨ !s.dev.inReset then s else
  let s := atLeast (s.dev.pwrAt + 1000000) s
  { s with dev.porstLow := false, dev.inReset := false, dev.bootStart := s.clock.clk, dev.stage := 0, dev.smbAddr := smbAddr % 4 }

/-- CORE_RST_N_ASSERT (R458): the warm reset runs and is held at its step 4. -/
def coreRstNAssert (s : State) : State :=
  let s := { s with dev.coreRstLow := true }
  if takesWarm s then warmReset 2 s else s

/-- CORE_RST_N_RELEASE (R458). -/
def coreRstNRelease (s : State) : State :=
  let s := { s with dev.coreRstLow := false }
  if s.dev.warm ∧ s.dev.warmHeld then warmGo s else s

/-- RESET_DELAY_EXPIRY (R459). -/
def resetDelayExpiry (s : State) : State :=
  match s.dev.resetReq with
  | none => s
  | some r =>
    let s := atLeast r.due s
    let s := { s with dev.resetReq := none }
    if r.cold then coldReset r.cause s else if takesWarm s then warmReset r.cause s else s

/-! ### Boot (R446 to R456) -/

/-- A stage begins. -/
def toStage (n : Nat) (s : State) : State :=
  { s with dev.stage := n, dev.stageMs := (s.clock.clk - s.dev.bootStart) / 1000000 }

/-- Recovery is entered (R453). -/
def enterRecovery (err : Nat) (s : State) : State :=
  let s := toStage 15 s
  { s with dev.bootErr := err, dev.mgmtLinked := false, dev.mgmtTry10g := true, dev.mgmtTryAt := s.clock.clk, sec.image := none }

/-- Stage PUF ends (R373, R377). -/
def pufDone (r : BootResult) (s : State) : State :=
  match r with
  | .fail e => enterRecovery (if s.dev.flash.helper then (if e = 0 then 4 else e) else 3) s
  | .ok =>
    if !s.dev.flash.helper then enterRecovery 3 s else
    toStage 2 { s with sec.pufOk := true, sec.nodeId := nodeIdOf, sec.owned := s.dev.flash.owner.isSome
                       sec.ownerMeas := s.dev.flash.owner }

/-- Stage IMAGE ends (R374): the image in flash decides. -/
def imageDone (r : BootResult) (s : State) : State :=
  match r, s.dev.flash.image with
  | .fail e, _ => enterRecovery (if 5 ≤ e ∧ e ≤ 8 then e else 5) s
  | .ok, none => enterRecovery 5 s
  | .ok, some i =>
    match imageErr i with
    | some e => enterRecovery e s
    | none => toStage 3 { s with sec.image := some i }

/-- Stage CAPSULE ends (R375, R379). -/
def capsuleDone (r : BootResult) (s : State) : State :=
  match goodCapsule s with
  | none => toStage 5 (if s.dev.flash.capsule.isSome then { s with dev.bootErr := 0x0A } else s)
  | some c =>
    if (s.sec.image.map (·.svn)).getD 0 < c.minFwSvn then enterRecovery 9 s
    else match r with
      | .fail _ => toStage 5 { s with dev.bootErr := 0x0A }
      | .ok => toStage 5 (applyWrites c { s with sec.capsule := some c, dev.flash.capSvn := c.capSvn })

/-- Stage CREST ends and BASE_CAMP is entered (R447, R449, R451): the command path comes up. -/
def enterBaseCamp (s : State) : State :=
  let s := if s.dev.warm then s else { s with mem := [], poison := [] }
  let s := toStage 7 s
  { s with dev.warm := false, dev.campAt := s.clock.clk
           dev.plls := b2n (bit s.dev.refs 9) * 2 ^ 12 + s.dev.refs % 256 * 2 ^ 4 + 0xF
           comps := if (comp s 0).st = 1 then s.comps else mset s.comps 0 { comp s 0 with st := 1 } }

/-- Stage CREST ends. A failure stays in the stage until a cold reset. -/
def crestDone (r : BootResult) (s : State) : State :=
  if s.dev.bootErr ∈ [0x02, 0x0B, 0x0C, 0x0D] then s
  else if !bit s.dev.refs 8 then { s with dev.bootErr := 0x02 }
  else match r with
    | .fail e => { s with dev.bootErr := if e ∈ [0x0B, 0x0C, 0x0D] then e else 0x0D }
    | .ok => enterBaseCamp s

/-- BOOT_STAGE_COMPLETE (R447, Table 16-2). In BIVOUAC the Hut's stages go on and the Crests', whose clocks are stopped, do not end. -/
def bootStageComplete (r : BootResult) (s : State) : State :=
  if dead s ∨ (s.dev.devState = .bivouac ∧ s.dev.stage = 5) ∨ s.dev.warmHeld then s else
  match s.dev.stage with
  | 0 => if bit s.dev.refs 9 then toStage 1 s else s
  | 1 => pufDone r s
  | 2 => imageDone r s
  | 3 => toStage 4 (useFree { s with sec.krSeed := freeVal s })
  | 4 => capsuleDone r s
  | 5 => crestDone r s
  | _ => s

/-- Has a logical port PTP_EN set? -/
def anyPtp (s : State) : Bool := (List.range 768).any fun l => isLport s l && bit (lcfg s l) 2

/-- FULL_ENTRY (R451): every port that is not OFF trains again, with no flap penalty. -/
def fullEntry (s : State) : State :=
  if !running s ∨ s.dev.stage ≠ 7 ∨ s.dev.devState ≠ .baseCamp then s else
  let s := if s.clock.tbState = 2 ∨ !anyPtp s then s else atLeast (s.dev.campAt + reg s 0x14 % 16 * 1000000000) s
  let s := setDevState .full (toStage 8 s)
  each ((s.lports.filter fun l => l.2.st != 0 && l.2.st != 7).map (·.1)) (fun lp s =>
    if isLport s lp ∧ modeOf s lp ≠ 0 then setLport lp (fun l => { l with st := 2 }) (goDown lp 0 s) else s) s

/-- MGMT_LINK_TRY (R453): 10GBASE-R and SGMII in turn, 100 ms each. -/
def mgmtLinkTry (linked : Bool) (s : State) : State :=
  if dead s ∨ !recovery s ∨ s.dev.mgmtLinked then s
  else if linked then { s with dev.mgmtLinked := true }
  else
    let s := atLeast (s.dev.mgmtTryAt + 100000000) s
    { s with dev.mgmtTry10g := !s.dev.mgmtTry10g, dev.mgmtTryAt := s.clock.clk }

/-- REFCLK_CHECK (R446, Table 16-1): a reference that is lost after the start is a fault. -/
def refclkCheck (mgt core : Bool) (sd : Nat) (s : State) : State :=
  if dead s then s else
  let old := s.dev.refs
  let s := { s with dev.refs := b2n mgt * 2 ^ 9 + b2n core * 2 ^ 8 + sd % 256 }
  if s.dev.stage = 0 then if mgt then toStage 1 { s with dev.plls := 2 ^ 12 } else s
  else if !running s then s
  else
    let s := each (List.range 8) (fun f s =>
      if bit old f && !bit sd f then
        let s := { s with dev.plls := s.dev.plls - (s.dev.plls &&& 2 ^ (4 + f)) }
        each ((s.lports.filter fun l => l.1 / 96 == f && l.2.st != 0 && l.2.st != 1 && l.2.st != 7).map (·.1)) (goDown · 1) s
      else s) s
    if bit old 8 && !core then selfStop 3 { s with dev.plls := s.dev.plls / 16 * 16 } else s

/-! ### Self-stops and the Hut cores (R415, R417) -/

/-- A fault that the Talik cannot contain, of the CAUSE given (R417, Table 17-11). -/
def hardFault (cause : Nat) (s : State) : State := if running s then selfStop cause s else s

/-- CREST_PLL_LOCK_LOSS. -/
def crestPllLockLoss (crest : Nat) (s : State) : State :=
  if running s ∧ crest < 4 then selfStop 3 { s with dev.plls := s.dev.plls - (s.dev.plls &&& 2 ^ crest) } else s

/-- HUT_WATCHDOG (Table 15-1): the control cores restart; management sessions end, HOST_RDY is low. -/
def hutWatchdog (s : State) : State :=
  if !mgmtUp s then s else
  fault 14 1 none 0 0 0 9 { s with dev.coresDown := true, sec.sessions := [], sec.shakes := [] }

/-- CONTROL_CORES_RESTART: the command path returns. -/
def controlCoresRestart (s : State) : State := if s.dev.coresDown then { s with dev.coresDown := false } else s

/-! ### Temperature, power, timebase -/

/-- Highest of two lists, place by place. -/
def peaks {α : Type} (le : α → α → Bool) : List α → List α → List α
  | a :: as, b :: bs => (if le a b then b else a) :: peaks le as bs
  | [], bs => bs
  | as, [] => as

/-- Places of a list for which a predicate holds, as a mask. -/
def hits {α : Type} (p : α → Bool) (l : List α) : Nat :=
  maskOf ((List.range l.length).filter fun i => ((l[i]?).map p).getD false)

/-- THERM_SAMPLE (R479): temperatures of the dies in 1/8 °C and of the stacks in °C. -/
def thermSample (dies : List Int) (sts : List Nat) (s : State) : State :=
  if dead s then s else
  let dies := dies.take 13
  let sts := sts.take (hbmStacks s)
  let cfg := reg s 0x0C000080
  let w := hits (fun t => decide (((bits cfg 15 8 : Nat) : Int) * 8 ≤ t)) dies
  let h := hits (fun t => decide (bits cfg 23 16 ≤ t)) sts
  let hot := dies.map fun t => decide ((880 : Int) ≤ t)
  let hotH := sts.map fun t => decide (100 ≤ t)
  let trip := (List.zipWith (· && ·) hot s.dev.dieHot).any id || (List.zipWith (· && ·) hotH s.dev.hbmHot).any id
  let s := { s with
    dev.dieNow := dies, dev.diePeak := peaks (fun a b => decide (a ≤ b)) s.dev.diePeak dies, dev.dieHot := hot
    dev.hbmNow := sts, dev.hbmPeak := peaks (fun a b => decide (a ≤ b)) s.dev.hbmPeak sts, dev.hbmHot := hotH
    dev.thermWarn := s.dev.thermWarn ||| w, dev.hbmWarn := s.dev.hbmWarn ||| h }
  let s := if w = 0 ∧ h = 0 then s else attn 10 s
  if trip then selfStop 6 { s with dev.thermTrip := true } else s

/-- PWR_EST_TICK (R480): the estimates of the last 1 ms, in 0.25 W. -/
def pwrEstTick (est : List Nat) (s : State) : State :=
  if dead s then s else
  let e := est.take 7
  { s with dev.pwrNow := e, dev.pwrPeak := peaks (fun a b => decide (a ≤ b)) s.dev.pwrPeak e }

/-- PTP_EVENT_MESSAGE (R79 to R81): a step in BASE_CAMP, elsewhere a slew, and OFFSET_ALARM above 1 ms. -/
def ptpEventMessage (lp : Nat) (m : PtpMsg) (s : State) : State :=
  if !(running s && isLport s lp && bit (lcfg s lp) 2 && live s lp) then s else
  let s := setLport lp (fun l => { l with lastRx := s.clock.clk }) s
  if !m.parent then s else
  let s := { s with clock.srcPort := lp / 8, clock.tbState := if m.locked then 2 else 1 }
  if s.dev.devState = .baseCamp then { s with clock.tb := ((s.clock.tb : Int) - m.offset).toNat, clock.slew := 0 }
  else
    let s := { s with clock.slew := -m.offset }
    if 1000000 < m.offset.natAbs then fault 15 1 none 0 0 0 10 { s with clock.offsetAlarm := true } else s

/-- HOLDOVER (R80). -/
def holdover (s : State) : State :=
  if tbRuns s ∧ s.clock.tbState = 2 then { s with clock.tbState := 3, clock.srcPort := 0xFF } else s

/-! ### Bivouac (R461 to R465) -/

/-- FRZ_N_FALL (R461, R462): honoured from the end of internal reset on. -/
def frzNFall (s : State) : State :=
  if dead s ∨ s.dev.devState = .bivouac then s
  else setDevState .bivouac { s with dev.frzInReset := s.dev.warm }

/-- What a read-out answers: RO_STAT and data (R464, R465, Table 16-6). `raw`: what the hardware holds there. -/
def readout (addr raw : Nat) (s : State) : (Nat × Nat) × State :=
  let kind := bits addr 63 60
  let a := addr % 2 ^ 60
  let deny := fun (ok : Bool) => if !ok then (0x12, 0) else if s.sec.confSeen then (0x52, 0) else (0, raw)
  match kind with
  | 1 => (deny (bits a 59 58 == 0), s)
  | 2 => (deny (bits a 59 58 == 0 && decide (a % 2 ^ 56 < 393216 * 256)), s)
  | 3 => (deny (bits a 59 58 == 0 && decide (a % 2 ^ 52 < 4194304)), s)
  | 4 => (deny (bits a 59 57 == 0), s)
  | 5 => (deny (decide (bits a 59 56 < hbmStacks s)), s)
  | 6 =>
    if 0x0D000000 ≤ a then ((0x12, 0), s)
    else if a % 4 ≠ 0 then ((0x11, 0), s)
    else
      let r := readWord .readout false a s
      if isWide a then
        let h := readWord .readout false (a + 4) r.2
        ((0, r.1 + h.1 * 2 ^ 32), h.2)
      else ((0, r.1), r.2)
  | 7 => (if bits a 59 59 = 0 then (0, raw) else (0x12, 0), s)
  | _ => ((0x12, 0), s)

/-- READOUT_DONE (R464): the read under way ends. -/
def readoutDone (raw : Nat) (s : State) : State :=
  if s.dev.devState ≠ .bivouac then s
  else if s.dev.roBusy then
    let r := readout s.dev.roAddr raw s
    { r.2 with dev.roBusy := false, dev.roStat := r.1.1, dev.frzData := r.1.2 }
  else match s.dev.jtagRead with
    | none => s
    | some a =>
      let r := readout a raw s
      emit (.tdo 136 (a * 2 ^ 72 + r.1.2 * 2 ^ 8 + r.1.1)) { r.2 with dev.jtagRead := none }

/-! ### JTAG (R466, Table 16-7) -/

/-- IDCODE of the part. -/
def idcodeOf (s : State) : Nat := if s.dev.part = .ct9616 then 0x19616B47 else 0x19608B47

/-- Is the TAP powered (Table 16-5)? -/
def tapUp (s : State) : Bool := s.dev.pwrOk && !s.dev.brown

/-- Boundary scan is permitted in BIVOUAC and in recovery. -/
def scanAllowed (s : State) : Bool := !dead s && (decide (s.dev.devState = .bivouac) || recovery s)

def idcode (s : State) : State := if tapUp s then emit (.tdo 32 (idcodeOf s)) { s with dev.tapIr := 0 } else s
def bypass (s : State) : State := if tapUp s then emit (.tdo 1 0) { s with dev.tapIr := 1 } else s
/-- TAP_RESET (R460): IDCODE is in force after a TAP reset. -/
def tapReset (s : State) : State := if tapUp s then { s with dev.tapIr := 0 } else s
def boundaryScan (ir v : Nat) (s : State) : State :=
  if !tapUp s then s
  else if scanAllowed s then { s with dev.tapIr := ir, dev.boundary := v }
  else bypass s
/-- FRZ_ACCESS: Update-DR starts the read; RO_STAT reads PENDING until it has ended, and DENIED with JTAG_RO at 0. -/
def frzAccess (addr : Nat) (s : State) : State :=
  if !tapUp s then s
  else if dead s ∨ s.dev.devState ≠ .bivouac then bypass s
  else if !s.dev.jtagRo then emit (.tdo 136 (addr * 2 ^ 72 + 0x13)) { s with dev.tapIr := 4 }
  else emit (.tdo 136 (addr * 2 ^ 72 + 1)) { s with dev.tapIr := 4, dev.jtagRead := some addr }

/-! ### SMBus (R497) -/

/-- SMBus packet error code: CRC-8, polynomial x^8 + x^2 + x + 1, most significant bit first. -/
def crc8 (bs : List Byte) : Nat :=
  let step := fun (c : Nat) => if 128 ≤ c then (c * 2 % 256) ^^^ 7 else c * 2
  bs.foldl (fun c b => (List.range 8).foldl (fun c _ => step c) (c ^^^ b.toNat)) 0

/-- Is it this target's address, and does the target answer? -/
def smbMine (s : State) (addr7 : Nat) : Bool := !dead s && decide (3 ≤ s.dev.stage) && addr7 == 0x5C + s.dev.smbAddr

/-- SMBUS_BLOCK_WRITE: command 0x01 with four data bytes sets the read address. -/
def smbusBlockWrite (addr7 command : Nat) (data : List Byte) (pecOk : Bool) (s : State) : State :=
  if !smbMine s addr7 ∨ !pecOk ∨ command ≠ 1 ∨ data.length ≠ 4 then emit .smbNack s
  else { s with dev.smbPtr := leVal data }

/-- SMBUS_BLOCK_READ: the register at the read address, HUT and CLK blocks only, then the PEC. -/
def smbusBlockRead (addr7 command : Nat) (pecOk : Bool) (s : State) : State :=
  if !smbMine s addr7 ∨ !pecOk ∨ command ≠ 2 then emit .smbNack s else
  let a := s.dev.smbPtr
  let r := if a % 4 = 0 ∧ (a < 0x01000000 ∨ within a 0x0C000000 0x0D000000) then readWord .smbus false a s else (0, s)
  let d := le 4 r.1
  emit (.smb (d ++ le 1 (crc8 (le 1 (addr7 * 2) ++ le 1 command ++ le 1 (addr7 * 2 + 1) ++ [4] ++ d)))) r.2

/-! ### Outputs (R460, Table 16-5) -/

/-- HOST_RDY is driven low. -/
def hostRdyLow (s : State) : Bool := !dead s && !hostRdy s

/-- ATTN_N is driven low. -/
def attnDriven (s : State) : Bool :=
  if dead s ∨ s.dev.warm then false
  else if recovery s ∨ s.flt.stopped then true
  else decide (6 ≤ s.dev.stage) && attnLow s

/-- THERM_TRIP_N is driven low, from a trip until PWR_OK falls. -/
def tripDriven (s : State) : Bool := !dead s && s.dev.thermTrip

/-! ### The commands -/

def execPwrOkFall (s : State) : Host.Outcome State Fault Refusal := .next (pwrOkFall s)
def execPwrOkRise (s : State) : Host.Outcome State Fault Refusal := .next (pwrOkRise s)
def execPorstNAssert (s : State) : Host.Outcome State Fault Refusal := .next (porstNAssert s)
def execInternalResetEnd (smbAddr : Nat) (s : State) : Host.Outcome State Fault Refusal := .next (internalResetEnd smbAddr s)
def execBrownOut (s : State) : Host.Outcome State Fault Refusal := .next (brownOut s)
def execCoreRstNAssert (s : State) : Host.Outcome State Fault Refusal := .next (coreRstNAssert s)
def execCoreRstNRelease (s : State) : Host.Outcome State Fault Refusal := .next (coreRstNRelease s)
def execFrzNFall (s : State) : Host.Outcome State Fault Refusal := .next (frzNFall s)
def execRefclkCheck (mgt core : Bool) (sd : Nat) (s : State) : Host.Outcome State Fault Refusal := .next (refclkCheck mgt core sd s)
def execBootStageComplete (r : BootResult) (s : State) : Host.Outcome State Fault Refusal := .next (bootStageComplete r s)
def execFullEntry (s : State) : Host.Outcome State Fault Refusal := .next (fullEntry s)
def execMgmtLinkTry (linked : Bool) (s : State) : Host.Outcome State Fault Refusal := .next (mgmtLinkTry linked s)
def execResetDelayExpiry (s : State) : Host.Outcome State Fault Refusal := .next (resetDelayExpiry s)
def execHutWatchdog (s : State) : Host.Outcome State Fault Refusal := .next (hutWatchdog s)
def execThermSample (dies : List Int) (sts : List Nat) (s : State) : Host.Outcome State Fault Refusal := .next (thermSample dies sts s)
def execRidgeLinkFailure (s : State) : Host.Outcome State Fault Refusal := .next (hardFault 2 s)
def execCrestPllLockLoss (crest : Nat) (s : State) : Host.Outcome State Fault Refusal := .next (crestPllLockLoss crest s)
def execHbmControllerFailure (s : State) : Host.Outcome State Fault Refusal := .next (hardFault 4 s)
def execPwrEstTick (est : List Nat) (s : State) : Host.Outcome State Fault Refusal := .next (pwrEstTick est s)
def execPtpEventMessage (lp : Nat) (m : PtpMsg) (s : State) : Host.Outcome State Fault Refusal := .next (ptpEventMessage lp m s)
def execHoldover (s : State) : Host.Outcome State Fault Refusal := .next (holdover s)
def execControlCoresRestart (s : State) : Host.Outcome State Fault Refusal := .next (controlCoresRestart s)
def execReadoutDone (raw : DWord) (s : State) : Host.Outcome State Fault Refusal := .next (readoutDone raw.toNat s)
def execIdcode (s : State) : Host.Outcome State Fault Refusal := .next (idcode s)
def execBypass (s : State) : Host.Outcome State Fault Refusal := .next (bypass s)
def execTapReset (s : State) : Host.Outcome State Fault Refusal := .next (tapReset s)
def execSamplePreload (v : Nat) (s : State) : Host.Outcome State Fault Refusal := .next (boundaryScan 2 v s)
def execExtest (v : Nat) (s : State) : Host.Outcome State Fault Refusal := .next (boundaryScan 3 v s)
def execFrzAccess (addr : DWord) (s : State) : Host.Outcome State Fault Refusal := .next (frzAccess addr.toNat s)
def execSmbusBlockWrite (addr7 command : Nat) (data : List Byte) (pecOk : Bool) (s : State) : Host.Outcome State Fault Refusal :=
  .next (smbusBlockWrite addr7 command data pecOk s)
def execSmbusBlockRead (addr7 command : Nat) (pecOk : Bool) (s : State) : Host.Outcome State Fault Refusal :=
  .next (smbusBlockRead addr7 command pecOk s)

end Sys2Proof.Machine
end

