-- ==== Sys2Proof/Machine/Tenants.lean ====
section
/-! DEFINITION. Compositions (R366 to R372, R389, R392): creation, reset, removal, the removal scrub, role changes as they
bear on them, and USAGE_READ. -/

namespace Sys2Proof.Machine

/-! ### What a composition owns -/

/-- Units of a composition: in a role for it, or changing toward one. -/
def unitsOf (s : State) (k : Nat) : List Nat :=
  (s.eng.units.filter fun u => (u.2.role != 0 && u.2.comp == k) ||
    ((u.2.change.map fun c => c.role != 0 && c.comp == k).getD false)).map (·.1)

/-- Every descriptor of a unit ends with a status: `key` is of EUnit. -/
def stopKey (key status : Nat) (s : State) : State :=
  if key < 128 then settleEng (stopUnit key status s) else stopHaulUnit (key - 128) status s

/-- Has a unit no active descriptor? -/
def unitIdle (s : State) (key : Nat) : Bool :=
  if key < 128 then (activeOn s key).isEmpty else (haulOn s (key - 128)).isEmpty

/-- Every unit of a composition goes to IDLE under R178 with DRAIN = 0 (R205, R295, R371). -/
def idleUnits (k status : Nat) (s : State) : State :=
  each (unitsOf s k) (fun key s => stopKey key status (beginChange key 0 0 status false s)) s

/-- The capture ring stops recording (R354). -/
def stopCapture (s : State) : State := setReg 0x0B000000 (setBits (reg s 0x0B000000) 2 0 0) s

/-- The capture ring is unmapped and its pages freed (R354). -/
def dropCapture (s : State) : State :=
  match s.sw.capture with
  | none => s
  | some c => each c.pages (fun a s => freeRun c.comp a 1 s) (stopCapture { s with sw.capture := none })

/-- A result ring goes: its producers' entries have no ring any more (R347), and its pages are freed. -/
def dropRing (r : Ring) (s : State) : State :=
  let s := { s with cmd.rings := s.cmd.rings.filter fun q => !(q.comp == r.comp && q.num == r.num) }
  let s := each r.waiting (fun e s => ringPut r.comp r.num e s) s
  freeRun r.comp r.page r.npages s

/-- Each word of a register entry is zeroed (R476). -/
def zeroWords (a n : Nat) (s : State) : State := each (List.range n) (fun i s => setReg (a + 4 * i) 0 s) s

/-- Multicast groups and CMD_SRC entries bound to a composition other than 0 are zeroed whole (R392). -/
def unbind (k : Nat) (s : State) : State :=
  let gs := (s.regs.filter fun r => within r.1 0x02100000 0x02200000 && r.1 % 128 == 100 && r.2.toNat % 64 == k).map (·.1 - 100)
  let cs := (s.regs.filter fun r => within r.1 0x08010000 0x08012000 && r.1 % 32 == 0 && r.2.toNat % 64 == k).map (·.1)
  each cs (fun a s => zeroWords a 8 s) (each gs (fun a s => zeroWords a 32 s) s)

/-- Commands of a composition that have not started are discarded without reply (R371, R392). -/
def discardWaiting (k : Nat) (s : State) : State :=
  press (each (List.range 4) (fun q s => if (mget s.cmd.queues (4 * k + q)).isSome then setQueue k q (fun u => { u with waiting := [] }) s else s) s)

/-- What is kept for a composition's commands that have started and wait goes (R392). -/
def dropStarted (k : Nat) (s : State) : State :=
  let mine : CmdRec → Bool := fun c => c.comp == k
  let gone := s.eng.reads.filter fun r => match r.2 with
    | .table c => mine c
    | .record c _ => mine c
    | .card c _ => mine c
    | _ => false
  { s with
    flt.held := s.flt.held.filter fun h => match h.2.2 with
      | .cmd c => !mine c
      | .table c _ => !mine c
      | .short c _ => !mine c
      | _ => true
    dir.pubs := s.dir.pubs.filter fun p => match p.who with
      | .cmd c => !mine c
      | .req _ => true
    eng.reads := s.eng.reads.filter fun r => !(gone.any (·.1 == r.1))
    reads := s.reads.filter fun r => !(gone.any (·.1 == r.1)) }

/-- Every running long command of a composition ends with a status. -/
def endLongs (k status : Nat) (s : State) : State :=
  each (s.cmd.longs.filter (·.cmd.comp == k)) (fun l => finishLong l status []) s

/-! ### TENANT_CREATE -/

/-- Quota parameters that break R315. -/
def quotaBad (s : State) (c : CmdRec) : Bool :=
  (List.range 4).any (fun i =>
    let v := pf c (16 + 4 * i) 4
    decide (2 ^ 18 ≤ v) || decide (poolPages s < sum (s.comps.map fun x => x.2.hbmQ.getD i 0) + v)) || decide (2 ^ 20 ≤ pf c 32 4)

/-- TENANT_CREATE (R366 to R368, Table 13-2). -/
def tenantCreateBody (c : CmdRec) (s : State) : CmdRes × State :=
  let k := pb c 0
  let depths := (List.range 4).map fun i => pf c (4 + 2 * i) 2
  if k = 0 ∨ k = c.comp then bad 0x11 s
  else if (comp s k).st = 3 then retryRes 15 s
  else if (comp s k).st ≠ 0 then bad 0x11 s
  else if depths.headD 0 = 0 ∨ depths.any (fun d => decide (4096 < d)) ∨ 2 ≤ pb c 1 ∨ quotaBad s c then bad 0x11 s
  else
    let confd := pb c 1 == 1
    let s := { s with sec.confSeen := s.sec.confSeen || confd }
    let s := setComp k (fun _ =>
      { st := 1, conf := confd, hbmQ := (List.range 4).map fun i => pf c (16 + 4 * i) 4, trayQ := pf c 32 4, made := true }) s
    let qs := ((List.range 4).zip depths).foldl (fun qs d => msetD qs (4 * k + d.1) {} { depth := d.2 }) s.cmd.queues
    (okRes, { s with cmd.queues := qs })

/-! ### TENANT_RESET and TENANT_REMOVE -/

/-- A card that is being loaded is not to be loaded any more: its window is revoked, and its pages follow (R325). -/
def undoCard (n : Nat) (s : State) : State :=
  each (s.xlt.extents.filter fun e => e.2.card == some n && !e.2.draining) (fun e => beginRevoke e.1) (setCard n (fun x => { x with st := 4, todo := [], fills := [] }) s)

/-- Numbers of a composition's cards in a state. -/
def cardsIn (s : State) (k : Nat) (p : Nat → Bool) : List Nat := (s.cards.filter fun c => c.2.comp == k && p c.2.st).map (·.1)

/-- TENANT_RESET (R371, Table 13-2) up to its PENDING reply; settleTenants returns the composition to ACTIVE. -/
def tenantResetBody (c : CmdRec) (s : State) : CmdRes × State :=
  let k := pb c 0
  if k = 0 ∨ k = c.comp then bad 0x11 s
  else if (comp s k).st = 0 ∨ (comp s k).st = 3 then bad 0x51 s
  else if (comp s k).st = 2 then retryRes 12 s
  else
    let s := setComp k (fun c => { c with st := 2 }) s
    let s := each (cardsIn s k (· == 1)) (fun n => stopCard n 0x41) s
    let s := each (cardsIn s k (· == 3)) undoCard s
    let s := idleUnits k 0x41 s
    let s := discardWaiting k (endLongs k 0x41 s)
    let s := { s with cmd.queues := s.cmd.queues.map fun q => if q.1 / 4 = k then (q.1, { depth := q.2.depth }) else q }
    (.pending (.reset k), settleCards s)

/-- Objects of step 4 of R392 that go at once, and the revocations and recall walks of the others. -/
def releaseObjects (k : Nat) (s : State) : State :=
  let spaces := (s.xlt.spaces.filter (·.2.comp == k)).map (·.1)
  let inSpace : Nat → Bool := fun x => spaces.contains x
  let apts := (s.dir.apts.filter fun a => inSpace a.2).map (·.1)
  let s := each (s.dir.agents.filter fun a => apts.contains (a.1 / 512) && a.2.st == 1) (fun a => agentDeath (a.1 / 512) (a.1 % 512) 3) s
  let s := each (s.xlt.extents.filter fun e => inSpace e.2.space && !e.2.draining) (fun e => beginRevoke e.1) s
  let s := each (s.dir.regions.filter fun r => inSpace r.2.space && !r.2.removing) (fun r s =>
    if r.2.mode = 0 then
      startWalk r.2.space r.2.base (r.2.base + r.2.size) none (some r.1) { s with dir.regions := mset s.dir.regions r.1 { r.2 with removing := true } }
    else dropRegion r.1 s) s
  let mine : Nat × Table → Bool := fun t => t.2.comp == k
  let s := { s with eng.tables := s.eng.tables.map fun t => if mine t then
    (t.1, { t.2 with vers := t.2.vers.map fun v => { v with current := false, held := false } }) else t }
  let s := retireVersions s
  let s := each (s.cmd.rings.filter (·.comp == k)) dropRing s
  let s := each (s.eng.tables.filter mine) (fun t s => each t.2.vers (retireVer t.1) s) s
  let s := if (s.sw.capture.map (·.comp == k)).getD false then dropCapture s else s
  { s with
    xlt.jobs := s.xlt.jobs.filter (·.2.comp != k)
    eng.recs := s.eng.recs.filter (·.comp != k), eng.watches := s.eng.watches.filter (·.comp != k)
    eng.anchored := s.eng.anchored.filter (·.1 != k), eng.unplaced := s.eng.unplaced.filter (·.own.comp != k) }

/-- TENANT_REMOVE (R392, Table 13-2) up to its PENDING reply; settleTenants and TENANT_SCRUB_DONE carry it on. -/
def tenantRemoveBody (c : CmdRec) (s : State) : CmdRes × State :=
  let k := pb c 0
  if k = 0 ∨ k = c.comp then bad 0x11 s
  else if (comp s k).st = 0 ∨ (comp s k).st = 3 then bad 0x51 s
  else
    -- step 1
    let s := setComp k (fun x => { x with st := 3, remPages := (s.pages.filter (·.2.comp == k)).map (·.1) }) s
    let s := endLongs k 0x51 (dropStarted k (discardWaiting k s))
    let s := finishAll (.reset k) 0x51 [] s
    let s := { s with cmd.queues := s.cmd.queues.filter (·.1 / 4 != k) }
    -- step 2
    let s := each (kgens s k) (retireGen k) s
    -- step 3
    let s := each (cardsIn s k (· == 1)) (fun n => stopCard n 0x41) s
    let s := unbind k (settleCards (idleUnits k 0x51 s))
    -- step 4
    (.pending (.remove k), releaseObjects k s)

/-- A composition that is being reset or removed goes on as far as it can. -/
def settleTenant (k : Nat) (s : State) : State :=
  match (comp s k).st with
  | 2 =>
    if unitsOf s k = [] ∧ cardsIn s k (· == 2) = [] then finishAll (.reset k) 0 [] (setComp k (fun c => { c with st := 1 }) s) else s
  | 3 =>
    if (comp s k).scrubAt.isSome then s else
    let s := each (cardsIn s k (fun st => st == 0 || st == 3)) undoCard s
    let s := settleCards s
    let spaces := (s.xlt.spaces.filter (·.2.comp == k)).map (·.1)
    if s.xlt.extents.any (fun e => spaces.contains e.2.space) || s.dir.regions.any (fun r => spaces.contains r.2.space) ||
        unitsOf s k != [] || cardsIn s k (fun _ => true) != [] then s
    else setComp k (fun c => { c with scrubAt := some s.clock.clk }) { s with xlt.spaces := s.xlt.spaces.filter (·.2.comp != k) }
  | _ => s

/-- Every composition's reset or removal goes on. -/
def settleTenants (s : State) : State :=
  each ((s.comps.filter fun c => c.2.st == 2 || c.2.st == 3).map (·.1)) settleTenant s

/-- ns that the scrub of the pages of a removal takes at least: its fullest Crest at SCRUB_RATE (R392). -/
def removalNs (s : State) (k : Nat) : Nat :=
  let ps := (comp s k).remPages
  let most := (List.range 4).foldl (fun m c => max m (ps.filter (· % 4 == c)).length) 0
  ceilDiv (most * pageSize) (8 * max 1 (bits (reg s 0x09000010) 7 0))

/-- TENANT_SCRUB_DONE: the pages are zero, the quotas and usage are zero, the state is NONE (R392 steps 5 and 6). -/
def tenantScrubDone (k : Nat) (s : State) : State :=
  if !running s then s else
  let s := settleTenants s
  let c := comp s k
  match c.scrubAt with
  | none => s
  | some t =>
    if c.st ≠ 3 then s else
    let s := atLeast (t + removalNs s k) s
    let free := c.remPages.filter fun p => (mget s.pages p).isNone
    let s := each free (fun p s => unpoison (p * pageSize) pageSize { s with mem := memZero s.mem (p * pageSize) pageSize }) s
    let s := count 0x09000428 (countN 0x09000420 (c.remPages.length * pageSize) s)
    let s := setComp k (fun c =>
      { hbmMs := c.hbmMs, trayMs := c.trayMs, hbmBytes := c.hbmBytes, trayBytes := c.trayBytes, haulBytes := c.haulBytes, made := c.made }) s
    finishAll (.remove k) 0 [] s

/-! ### Role changes, which a reset or a removal may wait for -/

/-- ROLE_SCRUB_DONE, after which a reset or removal of a composition may go on (R371, R392). -/
def roleDone (k : UKind) (unit : Nat) (s : State) : State :=
  let s := settleTenants (roleScrubDone k unit s)
  settleQueues (intake s) s

/-- ROLE_DRAIN_TIMEOUT (R178, R295). -/
def roleDrainTimeout (k : UKind) (unit : Nat) (s : State) : State :=
  match k with
  | .eng => if unit < 128 then engDrainTimeout unit s else s
  | .haul => settleCards (if unit < 64 then haulDrainTimeout unit s else s)

/-! ### USAGE_READ (R318, R389) -/

/-- The tier usage record of a composition (Table 11-3). -/
def usageRecord (s : State) (k : Nat) : List Byte :=
  let c := comp s k
  le 1 1 ++ le 1 k ++ zeros 6 ++ le 8 s.clock.tb ++ le 8 c.hbmMs ++ le 8 c.trayMs ++ le 8 c.hbmBytes ++ le 8 c.trayBytes ++ le 8 c.haulBytes ++
    zeros 8

/-- The 2,496 reply bytes: record, NODE_ID and the hedged signature. -/
def usageReply (s : State) (k : Nat) : List Byte :=
  let r := usageRecord s k ++ le 8 s.sec.nodeId
  r ++ padTo 2420 (Config.mldsaSign (aliasSeed s) (Config.sha3 r) (freeVal s)) ++ zeros 4

/-- USAGE_READ (R389). -/
def usageReadBody (c : CmdRec) (s : State) : CmdRes × State :=
  let k := pb c 1
  if !c.oper ∧ k ≠ c.comp then bad 0x13 s
  else if k ≠ 0 ∧ !(comp s k).made then bad 0x11 s
  else (.done 0 (usageReply s k), useFree s)

end Sys2Proof.Machine
end

