-- ==== Sys2Proof/Machine/Commands.lean ====
section
/-! DEFINITION. Commands of a host (chapter 12): intake, spaces, extents, regions, rings, jobs, publishes, QUIESCE and RESUME,
Seconding's two commands, statistics, the capture ring. -/

namespace Sys2Proof.Machine

/-! ### What goes on after a command -/

/-- Regions without a directory whose removal has been asked for go (R352). -/
def settleRegions (s : State) : State :=
  each ((s.dir.regions.filter fun r => r.2.removing && r.2.mode != 0).map (·.1)) endRegion s

/-- A SECOND_PROMOTE cannot succeed once the Leader is lost (R440). -/
def settlePromote (s : State) : State := if s.flt.second.lost then finishAll .promote 0x41 [] s else s

/-- Everything that a change may have set free goes on. -/
def settleAll (s : State) : State :=
  let s := settleXlt (settleRegions (settlePromote (finishAll .now 0 [] s)))
  let s := settleRecords (s.eng.reads.length + 1) s
  let s := settleCardReads (s.eng.reads.length + 1) s
  let s := settleCards (settleCopies (settleEng s))
  let s := settleTenants s
  settleQueues (intake s) s

/-! ### Spaces, extents, regions, rings (R119, R147, R352, Table 12-6). `sh`: for the Partner's objects (R421, R422) -/

/-- Do the ranges overlap? -/
def overlap (a n b m : Nat) : Bool := decide (a < b + m) && decide (b < a + n)

/-- Does a range of a space meet an extent, a region, a result ring or the capture ring? -/
def hitsExtent (s : State) (space a n : Nat) : Bool :=
  s.xlt.extents.any fun e => e.2.space == space && overlap a n e.2.offset e.2.size
def hitsRegion (s : State) (space a n : Nat) : Bool :=
  s.dir.regions.any fun r => r.2.space == space && overlap a n r.2.base r.2.size
def hitsRing (s : State) (space a n : Nat) : Bool :=
  (s.cmd.rings.any fun r => r.space == space && overlap a n r.offset (r.npages * pageSize)) ||
  (s.sw.capture.map fun c => c.space == space && overlap a n c.offset c.size).getD false

/-- FLT_CFG.HALF. -/
def half (s : State) : Nat := bits (reg s 0x0A000000) 1 1

/-- Numbers of `n` that a composition's own objects, or the Partner's, may take (R421): first and count. -/
def halfOf (s : State) (k n : Nat) (sh : Bool) : Nat × Nat :=
  if sh then ((1 - half s) * (n / 2), n / 2)
  else if mirrorBit s k then (half s * (n / 2), n / 2)
  else (0, n)

/-- Status for a space that a command names: it must exist, not as a shadow, and be the composition's (R504, R421, R369). -/
def spaceRow (s : State) (k space : Nat) (sh : Bool) : Nat :=
  match mget s.xlt.spaces space with
  | none => 0x12
  | some sp => if sp.shadow != sh then 0x12 else if sp.comp ≠ k then 0x13 else 0

/-- Reply of Table 12-6. -/
def mapReply (id apt : Nat) : List Byte := le 2 id ++ le 1 apt ++ zeros 5

/-- SPACE_CREATE: the lowest free number (R352, R421). -/
def spaceCreate (sh : Bool) (c : CmdRec) (s : State) : CmdRes × State :=
  let (lo, n) := halfOf s c.comp 1024 sh
  match firstFree (fun x => (mget s.xlt.spaces x).isSome) lo n with
  | none => noQuota s
  | some x => (okWith (mapReply x 0), { s with xlt.spaces := mset s.xlt.spaces x { comp := c.comp, shadow := sh } })

/-- SPACE_DESTROY (R352). -/
def spaceDestroy (sh : Bool) (c : CmdRec) (s : State) : CmdRes × State :=
  let x := pf c 2 2
  let r := spaceRow s c.comp x sh
  if r ≠ 0 then bad r s
  else if hitsExtent s x 0 (2 ^ 46) || hitsRegion s x 0 (2 ^ 46) || hitsRing s x 0 (2 ^ 46) then bad 0x11 s
  else (okWith (mapReply x 0), { s with xlt.spaces := mdel s.xlt.spaces x })

/-- XLT_TRAY entry whose EPID is this one. -/
def trayOfEp (s : State) (ep : Nat) : Option Nat := (List.range 256).find? fun t => trayValid s t && trayEp s t == ep

/-- EXTENT_MAP (R119, R128, R314, R317). A shadow tray extent names its tray by the endpoint ID in bytes 36 to 39 (R422). -/
def extentMap (sh : Bool) (c : CmdRec) (s : State) : CmdRes × State :=
  let x := pf c 2 2
  let hbm := bit (pb c 1) 0
  let size := 2 ^ pb c 4
  let off := pf c 8 8
  let base := pf c 16 8
  let n := size / pageSize
  let tray := if sh then trayOfEp s (pf c 36 4) else if trayValid s (pb c 6) then some (pb c 6) else none
  let r := spaceRow s c.comp x sh
  if r ≠ 0 then bad r s
  else if pb c 4 < 21 ∨ 30 < pb c 4 ∨ off % size ≠ 0 ∨ base % size ≠ 0 ∨ hitsExtent s x off size ∨ hitsRing s x off size then bad 0x11 s
  else if !hbm ∧ tray.isNone then bad (if sh then 0x11 else 0x12) s
  else match anyFree (fun i => (mget s.xlt.extents i).isSome) (freeVal s) 65536 with
    | none => noQuota s
    | some i =>
      let s := useFree s
      let put := fun (e : Extent) (s : State) => (okWith (mapReply i 0), { s with xlt.extents := mset s.xlt.extents i e })
      if hbm then
        match allocRun c.comp n .ls none s with
        | none => noQuota s
        | some (a, s) => put { space := x, offset := off, size, hbm := true, base := a } s
      else if (comp s c.comp).trayQ * 512 < (comp s c.comp).trayUse + n then noQuota s
      else put { space := x, offset := off, size, hbm := false, base, tray := tray.getD 0 }
        (setComp c.comp (fun k => { k with trayUse := k.trayUse + n }) s)

/-- Total of a space's COHERENT regions. -/
def coherentBytes (s : State) (x : Nat) : Nat :=
  sum ((s.dir.regions.filter fun r => r.2.space == x && r.2.mode == 0).map (·.2.size))

/-- Cases in which R146, R147 and Table 14-3 refuse a region. -/
def regionBad (s : State) (c : CmdRec) : Bool :=
  let x := pf c 2 2
  let coh := pb c 5 == 0
  let confd := bit (pb c 1) 1
  let cw := bit (pb c 1) 2
  let size := 2 ^ pb c 4
  let off := pf c 8 8
  let cwA := pf c 24 8
  (coh && (decide (pb c 4 < 25) || decide (36 < pb c 4))) || off % size != 0 || hitsRegion s x off size || hitsRing s x off size ||
  (coh && confd) || (coh && decide (2 ^ 36 < coherentBytes s x + size)) ||
  (coh && (aptOf s x).isNone && decide (64 ≤ s.dir.apts.length)) ||
  (cw && (pb c 5 != 1 || cwA % 8 != 0 || coherentAt s x cwA)) ||
  (coh && s.dir.regions.any fun r => r.2.space == x && r.2.cwEn && decide (off ≤ r.2.cwAddr) && decide (r.2.cwAddr < off + size)) ||
  (conf s c.comp && (coh || (pb c 5 == 2 && !confd)))

/-- REGION_CREATE (R146 to R149). -/
def regionCreate (sh : Bool) (c : CmdRec) (s : State) : CmdRes × State :=
  let x := pf c 2 2
  let coh := pb c 5 == 0
  let size := 2 ^ pb c 4
  let n := size / 2 ^ 25
  let r := spaceRow s c.comp x sh
  if r ≠ 0 then bad r s
  else if regionBad s c then bad 0x11 s
  else match anyFree (fun i => (mget s.dir.regions i).isSome) (freeVal s) 4096 with
    | none => noQuota s
    | some i =>
      let s := useFree s
      let apt := (aptOf s x).getD ((anyFree (fun a => (mget s.dir.apts a).isSome) (freeVal s) 64).getD 0)
      let g : Region :=
        { space := x, base := pf c 8 8, size, mode := pb c 5, conf := bit (pb c 1) 1, apt := if coh then apt else 0
          cwEn := bit (pb c 1) 2, cwAddr := if bit (pb c 1) 2 then pf c 24 8 else 0 }
      if !coh then (okWith (mapReply i 0), { s with dir.regions := mset s.dir.regions i g })
      else match allocRun c.comp (4 * n) .dir none (useFree s) with
        | none => noQuota s
        | some (a, s) =>
          let g := { g with dirRuns := [a, a + n, a + 2 * n, a + 3 * n] }
          (okWith (mapReply i apt), { s with dir.regions := mset s.dir.regions i g, dir.apts := mset s.dir.apts apt x })

/-- The region based at an offset of a space. -/
def basedAt (s : State) (x off : Nat) : Option (Nat × Region) := s.dir.regions.find? fun r => r.2.space == x && r.2.base == off

/-- REGION_REMOVE (R169, R352). -/
def regionRemove (c : CmdRec) (s : State) : CmdRes × State :=
  let x := pf c 2 2
  let r := spaceRow s c.comp x false
  if r ≠ 0 then bad r s
  else match basedAt s x (pf c 8 8) with
    | none => bad 0x12 s
    | some (i, g) =>
      if g.removing then retryRes 12 s
      else
        let s := { s with dir.regions := mset s.dir.regions i { g with removing := true } }
        let s := if g.mode = 0 then startWalk x g.base (g.base + g.size) none (some i) s else s
        (.pending (.recall i) (mapReply i (if g.mode = 0 then g.apt else 0)), s)

/-- Pages of a ring of 2^n entries of 2^e bytes. -/
def ringPages (e n : Nat) : Nat := ceilDiv (4096 + 2 ^ (n + e)) pageSize

/-- RING_CREATE (R355, R352). -/
def ringCreate (c : CmdRec) (s : State) : CmdRes × State :=
  let x := pf c 2 2
  let off := pf c 8 8
  let n := ringPages (pb c 4) (pb c 7)
  let r := spaceRow s c.comp x false
  if r ≠ 0 then bad r s
  else if off % pageSize ≠ 0 ∨ 2 ^ 46 < off + n * pageSize ∨ (findRing s c.comp (pf c 32 2)).isSome ∨ hitsExtent s x off (n * pageSize) ∨
      hitsRegion s x off (n * pageSize) ∨ hitsRing s x off (n * pageSize) then bad 0x11 s
  else if 4096 ≤ s.cmd.rings.length then noQuota s
  else match allocRun c.comp n .ls none s with
    | none => noQuota s
    | some (a, s) =>
      let q : Ring := { comp := c.comp, num := pf c 32 2, esize := pb c 4, nent := pb c 7, space := x, offset := off, page := a, npages := n }
      (okWith (mapReply q.num 0), { s with cmd.rings := s.cmd.rings ++ [q] })

/-- Does a descriptor, a running long command, a loaded Route Card or a table version name a ring (R355)? -/
def ringNamed (s : State) (k n : Nat) : Bool :=
  s.eng.descs.any (fun d => d.comp == k && d.ring == n && !d.standby) || s.haul.descs.any (fun d => d.comp == k && d.ring == n) ||
  s.cmd.longs.any (fun l => l.cmd.comp == k && l.cmd.ring == n) || s.cards.any (fun c => c.2.comp == k && rcRing c.2.raw == n) ||
  s.eng.tables.any fun t => t.2.comp == k && !t.2.shadow && t.2.vers.any fun v => recRing v.bytes == n

/-- RING_DESTROY (R355). -/
def ringDestroy (c : CmdRec) (s : State) : CmdRes × State :=
  match findRing s c.comp (pf c 32 2) with
  | none => bad 0x12 s
  | some r => if ringNamed s c.comp r.num then bad 0x11 s else (okWith (mapReply r.num 0), dropRing r s)

/-- EXTENT_REVOKE: a second revoke of a DRAINING extent joins the first (R143, R144). -/
def extentRevoke (c : CmdRec) (s : State) : CmdRes × State :=
  let x := pf c 0 2
  let r := spaceRow s c.comp x false
  if r ≠ 0 then bad r s
  else match s.xlt.extents.find? fun e => e.2.space == x && e.2.offset == pf c 8 8 with
    | none => bad 0x12 s
    | some (i, e) => (.pending (.revoke i), if e.draining then s else markRevoke i s)

/-! ### Jobs (R120, R351, R421) -/

/-- The six pairs of a JOB_CREATE: space, and rights R, W, A as bits 2 to 0. A pair with no right is empty. -/
def jobPairs (c : CmdRec) : List (Nat × Nat) :=
  (List.range 6).map fun i =>
    let v := pf c (4 + 2 * i) 2
    if bits v 12 10 = 0 then (0, 0) else (bits v 9 0, bits v 12 10)

/-- First job ID of a half, and one past its last (R421). -/
def jobHalf (h : Nat) : Nat × Nat := if h = 0 then (0, 32767) else (32767, 65535)

/-- JOB_CREATE. -/
def jobCreate (sh : Bool) (c : CmdRec) (s : State) : CmdRes × State :=
  let j := pf c 0 2
  let (lo, hi) := jobHalf (half s)
  let row := (jobPairs c).foldl (fun r p => if r ≠ 0 ∨ p.2 = 0 then r else spaceRow s c.comp p.1 sh) 0
  if j = 0xFFFF ∨ (mget s.xlt.jobs j).isSome then bad 0x11 s
  else if !sh ∧ mirrorBit s c.comp ∧ (j < lo ∨ hi ≤ j) then bad 0x11 s
  else if row ≠ 0 then bad row s
  else (okRes, { s with xlt.jobs := mset s.xlt.jobs j { comp := c.comp, pairs := jobPairs c, shadow := sh } })

/-- Does an active descriptor, a Route Card or a binding name a job (R351)? -/
def jobNamed (s : State) (j : Nat) : Bool :=
  s.eng.descs.any (fun d => d.job == j) || s.haul.descs.any (fun d => d.job == j) ||
  s.cards.any (fun c => (List.range (rcSteps c.2.raw)).any fun i => fld (stepRaw c.2.raw i) 6 2 == j) ||
  (List.range 768).any fun l => epValid s l && (epJobs s l).contains j

/-- JOB_DESTROY. -/
def jobDestroy (sh : Bool) (c : CmdRec) (s : State) : CmdRes × State :=
  let j := pf c 0 2
  match mget s.xlt.jobs j with
  | none => bad 0x12 s
  | some b =>
    if b.shadow != sh then bad 0x12 s
    else if b.comp ≠ c.comp then bad 0x13 s
    else if !sh ∧ jobNamed s j then bad 0x11 s
    else (okRes, { s with xlt.jobs := mdel s.xlt.jobs j })

/-! ### REGION_PUBLISH (R170, R351) -/

/-- REGION_PUBLISH joins its region's queue of publishes and is answered from there. -/
def regionPublish (c : CmdRec) (s : State) : CmdRes × State :=
  let x := pf c 0 2
  let r := spaceRow s c.comp x false
  if r ≠ 0 then bad r s
  else match basedAt s x (pf c 8 8) with
    | none => bad 0x12 (count 0x04000458 s)
    | some (i, g) => if g.mode ≠ 1 then bad 0x12 (count 0x04000458 s) else (.held, pushPub i (pf c 16 8) (.cmd c) s)

/-- Body of a command of R422 once the Partner has answered its CONFIG record. -/
def mirroredBody (c : CmdRec) (s : State) : CmdRes × State :=
  match c.opcode with
  | 0x10 =>
    match pb c 0 with
    | 1 => spaceCreate false c s
    | 2 => spaceDestroy false c s
    | 3 => extentMap false c s
    | 4 => regionCreate false c s
    | 5 => regionRemove c s
    | 6 => ringCreate c s
    | _ => ringDestroy c s
  | 0x11 => extentRevoke c s
  | 0x12 => jobCreate false c s
  | 0x13 => jobDestroy false c s
  | _ => regionPublish c s

/-! ### QUIESCE and RESUME (R409, R410, Table 14-5) -/

/-- Is a work handed over by a QUIESCE: owned here, with a standby copy at the Partner? -/
def handsOver (s : State) (d : Desc) : Bool :=
  !d.standby && !d.moving && !d.posting && d.wantsStandby && s.flt.paired && mirrorBit s d.comp && mirrorOk s d.comp

/-- QUIESCE, up to its PENDING reply. -/
def quiesceBody (c : CmdRec) (s : State) : CmdRes × State :=
  match s.dev.devState with
  | .quiesced => (.pending .now, s)
  | .full =>
    let s := setDevState .quiesced s
    let s := each (s.eng.descs.filter (handsOver s)) startHandover s
    let s := each (s.cards.map (·.1)) (fun n => stopCard n 0x41) s
    let us := pf c 0 4
    let ns := if us = 0 then engDrainNs s else us * 1000
    (.pending .quiesce, { s with dev.drainAt := some (s.clock.clk + ns) })
  | _ => bad 0x11 s

/-- QUIESCE_DRAIN_EXPIRY: what is still active or in flight ends with ABORTED (R409 step 4). -/
def quiesceDrainExpiry (s : State) : State :=
  match s.dev.drainAt with
  | none => s
  | some t =>
    if !running s then s else
    let s := atLeast t { s with dev.drainAt := none }
    let s := each (s.eng.descs.filter fun d => !d.standby && !d.moving && !d.posting) (stopDesc 0x41) s
    let s := each s.haul.descs (stopHaul 0x41) s
    let tray : TrayReq → Bool := fun r => match r.why with
      | .req _ => true
      | .window _ => true
      | _ => false
    settleAll (endInFlight (fun _ => true) tray [] 0x41 s)

/-- RESUME. -/
def resumeBody (_ : CmdRec) (s : State) : CmdRes × State :=
  match s.dev.devState with
  | .full => (okRes, s)
  | .quiesced => if s.cmd.longs.any (·.what == .quiesce) then retryRes 12 s else (okRes, setDevState .full s)
  | _ => bad 0x11 s

/-! ### PORT_REHOME (R73, R351) -/

def portRehomeBody (c : CmdRec) (s : State) : CmdRes × State :=
  let lp := pf c 0 2
  if !(isLport s lp && isKmt s lp && decide (1 ≤ modeOf s lp) && decide (modeOf s lp ≤ 3)) then bad 0x11 s
  else (okRes, enterRehome lp s)

/-! ### SECOND_START and SECOND_PROMOTE (R411, R436, R440) -/

/-- R411. -/
def mayStart (s : State) : Bool :=
  s.comps.all (fun c => c.1 == 0 || c.2.st == 0) && s.cards.isEmpty && s.eng.units.all fun u => u.2.role == 0 && u.2.change.isNone && u.2.st == 0

/-- SECOND_START. The lanes count from LSN 1 again. -/
def secondStartBody (c : CmdRec) (s : State) : CmdRes × State :=
  let ep := pf c 0 4
  if s.dev.devState ≠ .full ∨ !mayStart s ∨ pf c 4 4 = 0 then bad 0x11 s
  else match s.flt.heard.find? fun h => h.1 == ep && decide (s.clock.clk ≤ h.2.2 + 15000) with
    | none => bad 0x12 s
    | some (_, node, at_) =>
      let s := setReg 0x0A000008 (node % 2 ^ 32) (setReg 0x0A00000C (node / 2 ^ 32) s)
      let s := { s with
        flt.second := { phase := 1, leader := ep, target := pf c 4 4 }
        flt.lanes := List.replicate 4 {}, flt.sent := [], flt.held := [], flt.cfgBad := [], eng.insq := []
        flt.heardAt := some at_, flt.partnerEp := ep, flt.peerLost := false, flt.paired := false }
      (okRes, setDevState .seconding s)

/-- SECOND_PROMOTE, up to its PENDING reply. -/
def secondPromoteBody (_ : CmdRec) (s : State) : CmdRes × State :=
  if s.dev.devState ≠ .seconding then bad 0x11 s
  else if s.cmd.longs.any (·.what == .promote) then retryRes 12 s
  else (.pending .promote, { s with flt.second.promoteAt := s.clock.clk })

/-! ### STATS_READ (R353, Table 12-8) -/

/-- Reads 64-bit counters; CLEAR clears those that are cleared by a read. -/
def readCtrs (as : List Nat) (clear : Bool) (s : State) : CmdRes × State :=
  let v := (as.map fun a => le 4 (liveWord false s a) ++ le 4 (liveWord false s (a + 4))).flatten
  (okWith v, if clear then { s with ctrs := s.ctrs.filter fun p => !(as.contains p.1 && isCounter p.1) } else s)

/-- Composition that a unit works for: that of its outermost Rope, while it is in a role. -/
def unitOwner (s : State) (key : Nat) : Option Nat :=
  let u := eunit s (topOf s key)
  if u.role = 0 then none else some u.comp

/-- STATS_READ. -/
def statsReadBody (c : CmdRec) (s : State) : CmdRes × State :=
  let i := pf c 2 2
  let clear := bit (pb c 1) 0
  let unit := fun (lim key tbase toff rbase roff tiles : Nat) (tl rl : List Nat) =>
    if lim ≤ i then bad 0x11 s
    else if !unitThere s key then bad 0x12 s
    else if !c.oper ∧ unitOwner s key ≠ some c.comp then bad 0x13 s
    else if i < tiles then readCtrs (tl.map (tbase + i * toff + ·)) clear s
    else readCtrs (rl.map (rbase + (i - tiles) * roff + ·)) clear s
  match pb c 0 with
  | 1 =>
    if !c.oper then bad 0x13 s
    else if 96 ≤ i then bad 0x11 s
    else readCtrs ((portCtrs ++ [0x148]).map (portReg i)) clear s
  | 2 => unit 128 i 0x05000000 0x10000 0x05400000 0x100 64 tileCtrs ropeCtrs
  | 3 => unit 64 (128 + i) 0x06000000 0x10000 0x06400000 0x100 32 haulCtrs haulRopeCtrs
  | 4 =>
    if 16 ≤ i then bad 0x11 s
    else if !c.oper ∧ (cardAt s i).map (·.comp) ≠ some c.comp then bad 0x13 s
    else readCtrs ([0x20, 0x28, 0x30].map (0x07002000 + 64 * i + ·)) clear s
  | _ =>
    if i ≠ 0 then bad 0x11 s
    else (okWith ((List.range 16).map fun n => le 8 (cmdWord s (0x20000 + 64 * c.comp + 4 * n))).flatten, s)

/-! ### The capture ring (R106, R354) -/

/-- CAPTURE_CTL START. -/
def captureStartBody (c : CmdRec) (s : State) : CmdRes × State :=
  let x := pf c 8 2
  let off := pf c 16 8
  let size := 2 ^ pb c 10
  let n := size / pageSize
  let r := spaceRow s c.comp x false
  if r ≠ 0 then bad r s
  else if s.sw.capture.isSome then retryRes 15 s
  else if 2 ^ 46 < off + size ∨ hitsExtent s x off size ∨ hitsRegion s x off size ∨ hitsRing s x off size then bad 0x11 s
  else match allocRun c.comp n .ls none s with
    | none => noQuota s
    | some (a, s) =>
      let cfg := pb c 2 * 2 ^ 24 + c.comp * 2 ^ 18 + pb c 3 * 2 ^ 16 + pb c 1
      let s := setReg 0x0B000000 cfg (setReg 0x0B000004 (pf c 4 4) s)
      (okRes, { s with
        sw.capture := some { space := x, offset := off, size, comp := c.comp, pages := (List.range n).map (a + ·) }
        sw.capIdx := 0, sw.capSeq := 0, sw.capSkip := [0, 0, 0] })

/-- STOP and RELEASE act for the composition that owns the ring. -/
def captureOwned (act : State → State) (c : CmdRec) (s : State) : CmdRes × State :=
  if (s.sw.capture.map (·.comp)) = some c.comp then (okRes, act s) else bad 0x13 s

/-! ### NOP and REG_READ -/

def nopBody (_ : CmdRec) (s : State) : CmdRes × State := (okRes, s)

/-- Ends of the block windows (Table 17-1). -/
def windowsEnd : Nat := 0x0D000000

/-- REG_READ (R351, R7 to R9). -/
def regReadBody (c : CmdRec) (s : State) : CmdRes × State :=
  let a := pf c 0 4
  let n := pf c 4 4
  if windowsEnd < a + 4 * n then bad 0x12 s
  else
    let (ws, s) := readWords .cmd false n a s
    (okWith (ws.map (le 4)).flatten, s)

/-! ### Intake (R337 to R345, Table 12-3) -/

/-- Does a frame on a CMD port come to the Talik as a command (R339, Table 12-1)? UDP on PLAIN ports only and while UDP_EN, to
one of the two addresses, no fragment and no IPv4 options; raw to CMD_MAC. -/
def addressed (s : State) (lp : Nat) (f : CmdFrame) : Bool :=
  if f.udp then
    bit (reg s 0x08000000) 0 && !isKmt s lp && !f.ipOdd && (if f.ipv6 then f.dstIp == cmdIpv6 s else f.dstIp == reg s 0x08000018)
  else f.dstMac == reg64 s 0x08000010 % 2 ^ 48

/-- H0 to HCRC, PLEN, packet and its CRC, FCS and UDP checksum hold (R338, R339). -/
def frameOk (f : CmdFrame) : Bool :=
  let b := f.bytes
  let n := fld b 2 2
  f.fcsOk && (!f.udp || f.udpSumOk) && fld b 0 2 == 0x1008 && zeroAt b 4 8 &&
  fld b 12 4 == crc32c (b.take 12) && decide (32 ≤ n) && decide (n ≤ 8192) && b.length == 20 + n &&
  fld b (16 + n) 4 == crc32c (slice b 16 n) && 32 + fld b 22 2 == n

/-- Words of CMD_SRC entry i. -/
def srcWord (s : State) (i o : Nat) : Nat := reg s (0x08010000 + 32 * i + o)

/-- Does CMD_SRC entry i match a frame (R342)? The address stands in network order in the first bytes of the field (R365): six
for a MAC, four for IPv4, sixteen for IPv6. -/
def srcMatch (s : State) (lp : Nat) (f : CmdFrame) (i : Nat) : Bool :=
  let w := srcWord s i 0
  let l := srcWord s i 4 % 1024
  let addr := fun n => (List.range n).foldl (fun a j => a * 256 + srcWord s i (0x10 + 4 * (j / 4)) / 256 ^ (j % 4) % 256) 0
  bit w 31 && (l == 0x3FF || l == lp) &&
  (match bits w 29 28 with
    | 0 => addr 6 == f.srcMac
    | 1 => f.udp && !f.ipv6 && addr 4 == f.srcIp
    | 2 => f.udp && f.ipv6 && addr 16 == f.srcIp
    | _ => false)

/-- The command packet of a frame. -/
def cmdOf (f : CmdFrame) (lp : Nat) (oper : Bool) : CmdRec :=
  let p := f.bytes.drop 16
  { opcode := byteAt p 0, flags := byteAt p 2, comp := byteAt p 3 % 64, queue := byteAt p 4 % 4, cseq := fld p 8 4
    ring := fld p 12 2 % 1024, job := fld p 14 2, ctx := fld p 16 8, params := slice p 32 (fld p 6 2)
    hdrOk := byteAt p 1 == 0 && !bit (byteAt p 2) 0 && decide (byteAt p 2 < 16) && decide (byteAt p 3 < 64) && decide (byteAt p 4 < 4) &&
      byteAt p 5 == 0 && fld p 6 2 % 8 == 0 && decide (fld p 12 2 < 1024) && zeroAt p 24 8
    oper, lp, frame := f }

/-- Commands whose duplicates are executed again (Table 12-3). -/
def runsAgain (op : Nat) : Bool := op == 0x01 || op == 0x02 || op == 0x70 || op == 0x72

/-- A duplicate of a short command that only reads is executed again. -/
def again (c : CmdRec) (s : State) : State :=
  let (r, s) := match startCheck s c with
    | some (st, l) => (CmdRes.done st [] l, s)
    | none =>
      if c.opcode = 0x01 then nopBody c s
      else if c.opcode = 0x02 then regReadBody c s
      else if c.opcode = 0x70 then statsReadBody c s
      else usageReadBody c s
  match r with
  | .done st ps l => reply c st l ps s
  | _ => s

/-- The row of Table 12-3 for a duplicate, given the queue. -/
def dupRow (c : CmdRec) (q : Queue) (s : State) : State :=
  let s := count 0x08000420 s
  if decide (0 ≤ cseqDiff c.cseq q.next) then s
  else if q.running.contains c.cseq then sendReply c 1 0 [] s
  else if (q.busy.map (·.cseq)) = some c.cseq then s
  else if cseqDiff q.next c.cseq ≤ q.depth then
    match q.saved.find? (·.cseq == c.cseq) with
    | some v => if runsAgain v.opcode then again { c with opcode := v.opcode } s else sendReply c v.status v.load v.params s
    | none => s
  else sendReplyBytes c (nextReply c q s) s
where
  /-- BAD_PARAM with NEXT in a parameter (R344). -/
  nextReply (c : CmdRec) (q : Queue) (s : State) : List Byte :=
    let ps := le 4 q.next ++ zeros 4
    let pkt := le 1 c.opcode ++ le 1 0x11 ++ le 1 (1 + bits c.flags 3 2 * 4) ++ le 1 c.comp ++ le 1 c.queue ++ [0] ++ le 2 ps.length ++
      le 4 c.cseq ++ le 2 c.ring ++ le 2 c.job ++ le 8 c.ctx ++ le 8 s.clock.tb ++ ps
    let h := le 4 (pkt.length * 2 ^ 16 + 0x1008) ++ zeros 8
    h ++ le 4 (crc32c h) ++ pkt ++ le 4 (crc32c pkt)

/-- CMD_INTAKE: Table 12-3 in order. A frame that is no command frame of this Talik is dropped by its port (R400). -/
def cmdIntake (lp : Nat) (f : CmdFrame) (s : State) : State :=
  if dead s ∨ s.dev.devState = .bivouac ∨ !(isLport s lp && live s lp) then s
  else if modeOf s lp ≠ 4 then count 0x08000400 s
  else if !addressed s lp f then rxBad lp s
  else if !frameOk f then count 0x08000400 s
  else if !hostRdy s then count 0x08000408 s
  else match (List.range 256).find? (srcMatch s lp f) with
    | none => count 0x08000410 s
    | some i =>
      let w := srcWord s i 0
      let c := cmdOf f lp (bit w 27)
      let q := queue s c.comp c.queue
      let pos := cseqDiff c.cseq (oldest q)
      let known := (q.waiting.any (·.cseq == c.cseq)) || decide (cseqDiff c.cseq q.next < 0)
      if c.comp ≠ bits w 5 0 ∨ !bit (bits w 19 16) c.queue then sendReply c 0x13 0 [] (count 0x08000418 s)
      else if !compLive s c.comp then sendReply c 0x51 0 [] s
      else if conf s c.comp && !macsecReq s lp then sendReply c 0x52 0 [] s
      else if q.depth = 0 then sendReply c 0x11 0 [] s
      else if decide ((q.depth : Int) ≤ pos) then sendReply c 0x02 12 [] s
      else if known then dupRow c q s
      else
        let s := press (setQueue c.comp c.queue (fun q => { q with waiting := q.waiting ++ [c] }) s)
        settleQueues (intake s) s

/-! ### RING_PRODUCER_RESUME (R361) -/

/-- Producers that wait on a ring write their entries while it has space. -/
def resumeRing (k n : Nat) : Nat → State → State
  | 0, s => s
  | fuel + 1, s =>
    match findRing s k n with
    | none => s
    | some r =>
      match r.waiting with
      | [] => s
      | e :: es => if ringSpace r then resumeRing k n fuel (ringFill { r with waiting := es } e s) else s

def ringProducerResume (k n : Nat) (s : State) : State :=
  if !running s then s else
  match findRing s k n with
  | none => s
  | some r => settleAll (resumeRing k n r.waiting.length s)

/-! ### The rows -/

def execCmdIntake (lp : Nat) (f : CmdFrame) (s : State) : Host.Outcome State Fault Refusal := .next (cmdIntake lp f s)
def execRingProducerResume (comp ring : Nat) (s : State) : Host.Outcome State Fault Refusal := .next (ringProducerResume comp ring s)
def execNop (comp q : Nat) (s : State) : Host.Outcome State Fault Refusal := .next (settleAll (runCmd comp q 0x01 anyAct nopBody s))
def execRegRead (comp q : Nat) (s : State) : Host.Outcome State Fault Refusal := .next (settleAll (runCmd comp q 0x02 anyAct regReadBody s))
def execSpaceCreate (comp q : Nat) (s : State) : Host.Outcome State Fault Refusal :=
  .next (settleAll (runCmd comp q 0x10 (· == 1) (spaceCreate false) s))
def execSpaceDestroy (comp q : Nat) (s : State) : Host.Outcome State Fault Refusal :=
  .next (settleAll (runCmd comp q 0x10 (· == 2) (spaceDestroy false) s))
def execExtentMap (comp q : Nat) (s : State) : Host.Outcome State Fault Refusal :=
  .next (settleAll (runCmd comp q 0x10 (· == 3) (extentMap false) s))
def execRegionCreate (comp q : Nat) (s : State) : Host.Outcome State Fault Refusal :=
  .next (settleAll (runCmd comp q 0x10 (· == 4) (regionCreate false) s))
def execRegionRemove (comp q : Nat) (s : State) : Host.Outcome State Fault Refusal :=
  .next (settleAll (runCmd comp q 0x10 (· == 5) regionRemove s))
def execRingCreate (comp q : Nat) (s : State) : Host.Outcome State Fault Refusal :=
  .next (settleAll (runCmd comp q 0x10 (· == 6) ringCreate s))
def execRingDestroy (comp q : Nat) (s : State) : Host.Outcome State Fault Refusal :=
  .next (settleAll (runCmd comp q 0x10 (· == 7) ringDestroy s))
def execExtentRevoke (comp q : Nat) (s : State) : Host.Outcome State Fault Refusal :=
  .next (settleAll (runCmd comp q 0x11 anyAct extentRevoke s))
def execJobCreate (comp q : Nat) (s : State) : Host.Outcome State Fault Refusal :=
  .next (settleAll (runCmd comp q 0x12 anyAct (jobCreate false) s))
def execJobDestroy (comp q : Nat) (s : State) : Host.Outcome State Fault Refusal :=
  .next (settleAll (runCmd comp q 0x13 anyAct (jobDestroy false) s))
def execRegionPublish (comp q : Nat) (s : State) : Host.Outcome State Fault Refusal :=
  .next (settleAll (runCmd comp q 0x43 anyAct regionPublish s))
def execTenantCreate (comp q : Nat) (s : State) : Host.Outcome State Fault Refusal :=
  .next (settleAll (runCmd comp q 0x50 anyAct tenantCreateBody s))
def execTenantRemove (comp q : Nat) (s : State) : Host.Outcome State Fault Refusal :=
  .next (settleAll (runCmd comp q 0x51 anyAct tenantRemoveBody s))
def execTenantScrubDone (comp : Nat) (s : State) : Host.Outcome State Fault Refusal := .next (tenantScrubDone comp s)
def execTenantReset (comp q : Nat) (s : State) : Host.Outcome State Fault Refusal :=
  .next (settleAll (runCmd comp q 0x52 anyAct tenantResetBody s))
def execQuiesce (comp q : Nat) (s : State) : Host.Outcome State Fault Refusal :=
  .next (settleAll (runCmd comp q 0x60 anyAct quiesceBody s))
def execQuiesceDrainExpiry (s : State) : Host.Outcome State Fault Refusal := .next (quiesceDrainExpiry s)
def execResume (comp q : Nat) (s : State) : Host.Outcome State Fault Refusal := .next (settleAll (runCmd comp q 0x61 anyAct resumeBody s))
def execPortRehome (comp q : Nat) (s : State) : Host.Outcome State Fault Refusal :=
  .next (settleAll (runCmd comp q 0x62 anyAct portRehomeBody s))
def execSecondStart (comp q : Nat) (s : State) : Host.Outcome State Fault Refusal :=
  .next (settleAll (runCmd comp q 0x63 anyAct secondStartBody s))
def execSecondPromote (comp q : Nat) (s : State) : Host.Outcome State Fault Refusal :=
  .next (settleAll (runCmd comp q 0x64 anyAct secondPromoteBody s))
def execStatsRead (comp q : Nat) (s : State) : Host.Outcome State Fault Refusal :=
  .next (settleAll (runCmd comp q 0x70 anyAct statsReadBody s))
def execCaptureStart (comp q : Nat) (s : State) : Host.Outcome State Fault Refusal :=
  .next (settleAll (runCmd comp q 0x71 (· == 1) captureStartBody s))
def execCaptureStop (comp q : Nat) (s : State) : Host.Outcome State Fault Refusal :=
  .next (settleAll (runCmd comp q 0x71 (· == 2) (captureOwned stopCapture) s))
def execCaptureRelease (comp q : Nat) (s : State) : Host.Outcome State Fault Refusal :=
  .next (settleAll (runCmd comp q 0x71 (· == 3) (captureOwned dropCapture) s))
def execUsageRead (comp q : Nat) (s : State) : Host.Outcome State Fault Refusal :=
  .next (settleAll (runCmd comp q 0x72 anyAct usageReadBody s))

end Sys2Proof.Machine
end

