-- ==== Sys2Proof/Machine/Mirror.lean ====
section
/-! DEFINITION. The Partner mirror log as it is received and answered (R423 to R426), and Seconding's windows (R437 to R440). -/

namespace Sys2Proof.Machine

/-! ### Records received -/

/-- The records of an MLOG payload (R423). -/
def recsOf : Nat → List Byte → List LogRec
  | 0, _ => []
  | n + 1, b => { rtype := byteAt b 0, comp := byteAt b 1 % 64, body := slice b 8 (fld b 2 2) } :: recsOf n (b.drop (8 + fld b 2 2))

/-- Does a space back the Partner's space of a composition? -/
def isShadow (s : State) (k space : Nat) : Bool := ((mget s.xlt.spaces space).map fun p => p.shadow && p.comp == k).getD false

/-- Key of a 2,048-byte chunk of a space, and of a directory chunk of 128 lines of one slice. -/
def chunkKey (space a : Nat) : Nat := space * 2 ^ 40 + a / 2048
def dirChunkKey (space line : Nat) : Nat := 2 ^ 60 + space * 2 ^ 40 + line / 32768 * 4 + sliceOf line

/-- A Second discards a record for a chunk whose SNAP has not come (R437). -/
def arrived (s : State) (key : Nat) : Bool := !seconding s || s.flt.second.pages.contains key

/-- A CONFIG record as a command of its composition. -/
def shadowCmd (k : Nat) (b : List Byte) : CmdRec :=
  { opcode := byteAt b 0, flags := 0, comp := k, queue := 0, cseq := 0, ring := 0, job := 0xFFFF, ctx := 0, params := b.drop 8
    oper := true, lp := 0, frame := {} }

/-- SPACE_CREATE in a snapshot takes the Leader's number; otherwise the lowest free one of the other half is the Partner's own. -/
def spaceMirrored (c : CmdRec) (s : State) : CmdRes × State :=
  if !seconding s then spaceCreate true c s
  else if (mget s.xlt.spaces (pf c 2 2)).isSome then bad 0x11 s
  else (okRes, { s with xlt.spaces := mset s.xlt.spaces (pf c 2 2) { comp := c.comp, shadow := true } })

/-- The shadow region at an offset goes (REGION_REMOVE), and the shadow extent (EXTENT_REVOKE). -/
def shadowGone (region : Bool) (x off : Nat) (s : State) : CmdRes × State :=
  if region then
    match basedAt s x off with
    | some (i, _) => (okRes, dropRegion i s)
    | none => bad 0x12 s
  else match s.xlt.extents.find? fun e => e.2.space == x && e.2.offset == off with
    | some (i, _) => (okRes, dropExtent i s)
    | none => bad 0x12 s

/-- A Rope of the snapshot, under the Leader's number and generation (R437). -/
def ropeCopied (c : CmdRec) (s : State) : CmdRes × State :=
  let base := if pb c 1 = 1 then 128 else 0
  let r := base + pb c 3
  let ks := (List.range (pb c 2)).map fun i => base + pb c (8 + i)
  let s := setUnit r (fun u => { u with gen := pf c 4 2, formed := true, members := ks }) s
  (okRes, each ks (fun k s => setUnit k (fun u => { u with parent := some r }) s) s)

/-- A role of the snapshot, at the Leader's role generation (R437). -/
def roleCopied (c : CmdRec) (s : State) : CmdRes × State :=
  let key := ukey (if pb c 1 = 1 then .haul else .eng) (pb c 0)
  (okRes, setUnit key (fun u => { u with role := pb c 2, comp := c.comp, gen := pf c 4 2, st := 0 }) s)

/-- What a CONFIG record does (Table 15-4). A snapshot's records that set up compositions and units are taken by a Second only. -/
def configBody (c : CmdRec) (s : State) : CmdRes × State :=
  match c.opcode with
  | 0x10 =>
    match pb c 0 with
    | 1 => spaceMirrored c s
    | 2 => spaceDestroy true c s
    | 3 => extentMap true c s
    | 4 => regionCreate true c s
    | 5 => if spaceRow s c.comp (pf c 2 2) true ≠ 0 then bad 0x12 s else shadowGone true (pf c 2 2) (pf c 8 8) s
    | _ => (okRes, s)
  | 0x11 => if spaceRow s c.comp (pf c 0 2) true ≠ 0 then bad 0x12 s else shadowGone false (pf c 0 2) (pf c 8 8) s
  | 0x12 => jobCreate true c s
  | 0x13 => jobDestroy true c s
  | 0x42 => (okRes, applyRecord c.comp (c.params.drop 16) true s)
  | 0x50 => if seconding s then tenantCreateBody { c with comp := 0 } s else bad 0x11 s
  | 0x20 => if seconding s then ropeCopied c s else bad 0x11 s
  | 0x21 => if seconding s then roleCopied c s else bad 0x11 s
  | _ => (okRes, s)

/-- Applies a CONFIG record: its status, and the state, unchanged unless it is OK (R422). -/
def applyConfig (k : Nat) (b : List Byte) (s : State) : Nat × State :=
  let c := shadowCmd k b
  if !compLive s k ∧ c.opcode ≠ 0x50 then (0x51, s)
  else if !mirrorBit s k then (0x11, s)
  else match configBody c s with
    | (.done 0 _ _, s) => (0, s)
    | (.done st _ _, _) => (st, s)
    | _ => (0x11, s)

/-- An entry from its 16 bytes (Table 5-2). -/
def entOf (b : List Byte) : DirEnt :=
  let lo := fld b 0 8
  let hi := fld b 8 8
  let coarse := bit hi 60
  { st := bits hi 63 61, coarse, mask := if coarse then lo else 0
    ptrs := if coarse then [] else ((List.range 4).filter fun i => bit lo (10 * i + 9)).map fun i => bits lo (10 * i + 8) (10 * i) }

/-- A WRI record: the shadow's bytes and the reply-cache entry. -/
def applyWri (c lsn : Nat) (r : LogRec) (s : State) : State :=
  let b := r.body
  let x := fld b 0 2
  let a := fld b 8 8
  let d := slice b 24 (fld b 2 2)
  let m := min d.length (2048 - a % 2048)
  let ps := [(a, d.take m), (a + m, d.drop m)].filter fun p => p.2 != [] && arrived s (chunkKey x p.1)
  match extAt s x a with
  | none => s
  | some (_, e) =>
    if !e.hbm ∨ !isShadow s r.comp x ∨ ps = [] then s else
    let s := each ps (fun p => hbmWrite (extAddr e p.1) p.2) s
    let src := fld b 16 4
    replyDigests c lsn r [] 0 0
      (cachePut { crest := srcCrest s src c, src, tag := fld b 20 4, status := 0, data := [], at_ := s.clock.clk } s)

/-- An ATI record: the fold on the shadow, in the logged order, and each requester's reply-cache entry. -/
def applyAti (c lsn : Nat) (r : LogRec) (s : State) : State :=
  let b := r.body
  let x := fld b 0 2
  let a := fld b 8 8
  match extAt s x a with
  | none => s
  | some (_, e) =>
    if !e.hbm ∨ !isShadow s r.comp x ∨ !arrived s (chunkKey x a) then s else
    let w := byteAt b 3
    let old := leVal (memRead s.mem (extAddr e a) w)
    let st := if poisoned s (extAddr e a) w then 0x20 else 0
    let s := each (atiOlds b old) (fun q s =>
      let s := (perform { id := 0, addr := extAddr e a, op := .atomic (byteAt b 2) w (q.1.drop 8), why := .post } s).2.2
      let src := fld q.1 0 4
      cachePut { crest := srcCrest s src c, src, tag := fld q.1 4 4, status := st, data := q.2, at_ := s.clock.clk } s) s
    replyDigests c lsn r [] st old s

/-- A DONE record closes its intent (Table 15-4). -/
def applyDone (c lsn : Nat) (r : LogRec) (s : State) : State :=
  let n := fld r.body 0 8
  match s.flt.intents.find? fun i => i.lane == c && i.lsn == n && !i.dir with
  | none => s
  | some i =>
    let st := byteAt r.body 8
    let old := slice r.body 16 16
    let v := leVal (old.take (atomWidth (byteAt i.body 8) (fld i.body 10 2)))
    closeIntent c n st old (replyDigests c lsn r i.body st v s)

/-- A DIRENT record: the shadow entry, and the end of an open transaction on the line. -/
def applyDirent (r : LogRec) (s : State) : State :=
  let x := fld r.body 0 2
  let l := fld r.body 8 8
  let s := { s with flt.intents := s.flt.intents.filter fun i => !(i.dir && fld i.body 0 2 == x && fld i.body 8 8 == l) }
  if isShadow s r.comp x && arrived s (dirChunkKey x l) then
    { s with dir.ents := msetD s.dir.ents (lkey x l) {} (entOf (slice r.body 16 16)) }
  else s

/-- A CAIRN record. -/
def applyCairn (r : LogRec) (s : State) : State :=
  let x := fld r.body 0 2
  if !isShadow s r.comp x then s else
  { s with dir.regions := s.dir.regions.map fun g =>
      if g.2.space = x ∧ g.2.base = fld r.body 8 8 then (g.1, { g.2 with cairn := fld r.body 16 8 }) else g }

/-- An AGENT record. -/
def applyAgent (r : LogRec) (s : State) : State :=
  let x := fld r.body 0 2
  match aptOf s x with
  | none => s
  | some apt =>
    if !isShadow s r.comp x then s else
    let a : Agent := { st := byteAt r.body 4, cause := byteAt r.body 5, ep := fld r.body 8 4 % 2 ^ 18 }
    { s with dir.agents := msetD s.dir.agents (512 * apt + fld r.body 2 2 % 512) {} a }

/-- An OWN record. A Second's own units do the Leader's work, so it keeps the record alone. -/
def applyOwn (r : LogRec) (s : State) : State :=
  if seconding s then keepRec (ownOf r.comp (partnerNode s) (r.body.drop 8)) s
  else settleEng (ownLogged r.comp (partnerNode s) r.body s)

/-- A RETIRE record: the reference held for the owner goes (Table 15-4). -/
def applyRetire (r : LogRec) (s : State) : State :=
  let t := byteAt r.body 0
  retireVersions { s with eng.tables := s.eng.tables.map fun x =>
    if x.1 = t ∧ x.2.comp = r.comp ∧ x.2.shadow then
      (x.1, { x.2 with vers := modIf (·.version == fld r.body 4 4) (fun v => { v with held := false }) x.2.vers }) else x }

/-- A SNAP record: 2,048 bytes of a page, or the entries of 128 lines of a slice. -/
def applySnap (r : LogRec) (s : State) : State :=
  let x := fld r.body 0 2
  let a := fld r.body 8 8
  let d := slice r.body 16 2048
  let mark := fun (k : Nat) (s : State) => { s with flt.second.pages := s.flt.second.pages ++ [k] }
  if !isShadow s r.comp x then s
  else if byteAt r.body 2 = 0 then
    match extAt s x a with
    | some (_, e) => if e.hbm then mark (chunkKey x a) (hbmWrite (extAddr e a) d s) else s
    | none => s
  else mark (dirChunkKey x a)
    (each (List.range 128) (fun i s =>
      { s with dir.ents := msetD s.dir.ents (lkey x (a + 256 * i)) {} (entOf (slice d (16 * i) 16)) }) s)

/-! ### Inputs at a Second (R438) -/

/-- A descriptor that the Leader has accepted: the Second's unit of the same ID does the same work. -/
def inputDesc (k : Nat) (item : List Byte) (s : State) : State :=
  let n := 64 + fld item 12 2
  let raw := item.take n
  let extra := item.drop n
  if (activeOn s (byteAt raw 2 % 128)).any fun d => d.comp == k && d.descId == fld raw 8 4 then s else
  let kind := byteAt raw 0
  let d := newDesc s raw (if kind = 1 then 1024 else 1) (.node {})
  let d := if kind = 1 then
      { d with work := .node { members := (List.range d.nmemb).map fun j => memberOf (slice extra (16 * j) 16), segs := d.shares.map fun _ => 0 } }
    else if kind = 2 then batchDesc d (fld extra 0 4) else runDesc d
  let s := if kind = 3 then takeSlots d s else s
  settleEng (advanceNode d.id { s with eng.descs := s.eng.descs ++ [d], xlt.nextId := s.xlt.nextId + 1 })

/-- A packet that a unit of the Leader has taken in: a request of its work, or the answer to a packet that it sent. -/
def inputPacket (item : List Byte) (s : State) : State :=
  let h := kmtOf item
  let p := { h with payload := slice item 32 h.len }
  if p.rsp then
    match findSent s p with
    | none => s
    | some e =>
      match p.opcode with
      | 0x51 => settleEng (resultAnswered p e s)
      | 0x52 => epartAnswered p e s
      | 0x55 => growAnswered p e s
      | 0x56 => bagAnswered p e s
      | _ => outputAnswered p e s
  else match pktDesc s p with
    | none => s
    | some d => workPacket 0x3FF 2 p d s

/-- Row data that a unit of the Leader has read (log entry 61). -/
def inputRow (tile : Nat) (item : List Byte) (s : State) : State :=
  let row := fld item 0 4
  let hot := fld item 4 4 == 1
  let st := fld item 8 8
  let fits := fun (f : ReadFor) => match f with
    | .row desc share _ r => !hot && r == row && (((findDesc s desc).bind fun d => d.shares[share]?).map (·.tile)) == some tile
    | .hot t _ _ r => hot && r == row && t == tile
    | _ => false
  match s.eng.reads.find? fun r => fits r.2 with
  | some (id, f) => rowRead id f (st, if st = 0 then item.drop 16 else []) s
  | none => s

/-- An INPUT record. -/
def applyInput (r : LogRec) (s : State) : State :=
  let tile := byteAt r.body 0 % 64
  let item := r.body.drop 16
  let s := { s with eng.insq := mset s.eng.insq tile (fld r.body 8 8) }
  match byteAt r.body 1 with
  | 0 => inputDesc r.comp item s
  | 1 => inputPacket item s
  | _ => inputRow tile item s

/-! ### Windows at a Second (R439, R440) -/

/-- The Leader has skipped a window: the unit state of mirrored compositions is discarded. -/
def dropUnitState (s : State) : State :=
  let gone := s.eng.descs.filter fun d => mirrorBit s d.comp
  each gone (fun d => dropDesc d.id 0x41) s

/-- A window whose MARKs have all come is clean, differs or was skipped. -/
def windowClosed (n w : Nat) (s : State) : State :=
  let x := s.flt.second
  let lanes := (x.bad.filter (·.1 == n)).map (·.2)
  let s := { s with flt.second.bad := x.bad.filter (·.1 != n) }
  if lanes.contains 4 then count 0x0A000440 { s with flt.second.cleanRun := 0 }
  else if lanes ≠ [] then
    let s := { s with flt.second.cleanRun := 0, flt.second.mismatchW := w
                      flt.second.mismatchLanes := lanes.foldl (fun m l => m ||| 2 ^ l) 0 }
    fault 13 1 none 0 0x0A000438 w 9 (count 0x0A000438 s)
  else
    let ready := x.phase == 2 && decide (x.target ≤ x.cleanRun) && s.cmd.longs.any (·.what == .promote)
    count 0x0A000448 { s with flt.second.cleanRun := satAdd (2 ^ 32 - 1) x.cleanRun 1
                              flt.second.phase := if ready then 3 else x.phase }

/-- A MARK: the lane's own digest of the window is compared and begins anew. The first one on each lane ends the snapshot. -/
def applyMark (c : Nat) (r : LogRec) (s : State) : State :=
  if !seconding s then s else
  let x := s.flt.second
  let w := fld r.body 0 8
  let d := fld r.body 8 8
  let n := x.marks.getD c 0 + 1
  let s := if n = 1 then s
    else if d = 2 ^ 64 - 1 then dropUnitState { s with flt.second.bad := x.bad ++ [(n, 4)] }
    else if d ≠ (lane s c).digest then { s with flt.second.bad := x.bad ++ [(n, c)] }
    else s
  let s := setLane c (fun l => { l with digest := 0 }) { s with flt.second.marks := x.marks.set c n }
  if (s.flt.second.marks.all (decide <| n ≤ ·)) then
    (if n = 1 then { s with flt.second.phase := 2 } else windowClosed n w s)
  else s

/-! ### MLOG -/

/-- Applies one record (Table 15-4): the status of a CONFIG record, and the state. -/
def applyLog (c lsn : Nat) (r : LogRec) (s : State) : Nat × State :=
  match r.rtype with
  | 0x01 => applyConfig r.comp r.body s
  | 0x02 => (0, applyWri c lsn r s)
  | 0x03 => (0, applyAti c lsn r s)
  | 0x04 => (0, { s with flt.intents := s.flt.intents ++ [{ lane := c, lsn, dir := false, body := r.body, comp := r.comp }] })
  | 0x05 => (0, applyDone c lsn r s)
  | 0x06 => (0, { s with flt.intents := s.flt.intents ++ [{ lane := c, lsn, dir := true, body := r.body, comp := r.comp }] })
  | 0x07 => (0, applyDirent r s)
  | 0x08 => (0, applyCairn r s)
  | 0x09 => (0, applyAgent r s)
  | 0x0A => (0, applyOwn r s)
  | 0x0B => (0, applyRetire r s)
  | 0x0C => (0, applyMark c r s)
  | 0x0D => (0, applySnap r s)
  | 0x0E => (0, applyInput r s)
  | _ => (0, s)

/-- Applies a lane's records in LSN order: one at or below APPLIED_LSN not again, and none after a gap (R424). -/
def applyRecs (c : Nat) : Nat → List LogRec → State → State
  | _, [], s => s
  | lsn, r :: rs, s =>
    if lsn ≤ (lane s c).applied then applyRecs c (lsn + 1) rs s
    else if lsn = (lane s c).applied + 1 then
      let (st, s) := applyLog c lsn r s
      let s := if st = 0 then s else { s with flt.cfgBad := mset s.flt.cfgBad lsn st }
      applyRecs c (lsn + 1) rs (setLane c (fun l => { l with applied := lsn }) s)
    else s

/-- MLOG: applied and answered with APPLIED_LSN; the MLOG of a CONFIG record with its status (R422, R424). -/
def mlog (lp tc : Nat) (p : Kmt) (s : State) : State :=
  if !running s ∨ !takesPackets s lp then s else
  let s := takeRx lp tc p s
  if p.rsp ∨ !(s.flt.paired || seconding s) ∨ !(partnerPorts s).contains lp then s
  else if p.len < 24 ∨ 4096 < p.len ∨ p.dst ≠ selfEp s ∨ tc ≠ 6 then count 0x03000400 s
  else
    let c := byteAt p.payload 0 % 4
    let first := fld p.payload 8 8
    let rs := recsOf (fld p.payload 2 2) (p.payload.drop 16)
    let s := settleAll (applyRecs c first rs s)
    let st := if (rs.map (·.rtype)) = [1] then mgetD s.flt.cfgBad first 0 else 0
    sendFrom inCtl lp 6 (response p (selfEp s) st 0 (le 8 (lane s c).applied)) none s

/-! ### Answers of the Partner (R425) -/

/-- A command of R422 whose record has been applied takes its effect. -/
def heldCmd (c : CmdRec) (s : State) : State :=
  let s := setQueue c.comp c.queue (fun q => { q with busy := if q.busy = some c then none else q.busy }) s
  applyRes c (mirroredBody c s).1 (mirroredBody c s).2

/-- An effect whose gate has opened takes place. -/
def openGate (h : Held) (s : State) : State :=
  match h with
  | .cmd c => heldCmd c s
  | .tray tag =>
    match s.xlt.trays.find? fun r => r.tag == tag && !r.sent with
    | none => s
    | some r =>
      let r' := { r with sent := true, sentAt := s.clock.clk }
      sendTray r' false { s with xlt.trays := modIf (· == r) (fun _ => r') s.xlt.trays }
  | .ring k n e => ringPut k n e s
  | .cairn id => cairnAnswered id s
  | .table c b => endPublish c 0 (byteAt b 0) (applyRecord c.comp b false s)
  | .short c ps => endShort c 0 ps s

/-- Effects whose gates are open take place, in the order in which they were held. -/
def releaseHeld : Nat → State → State
  | 0, s => s
  | n + 1, s =>
    match s.flt.held.find? fun h => gateOpen s (some (h.1, h.2.1)) with
    | none => s
    | some h => releaseHeld n (openGate h.2.2 { s with flt.held := s.flt.held.erase h })

/-- Releases what has been answered. -/
def settleHeld (s : State) : State := releaseHeld (s.flt.held.length + 1) s

/-- A CONFIG record that the Partner has not applied ends its command with the Partner's status (R422). -/
def configFailed (m : MlogPkt) (status : Nat) (s : State) : State :=
  if (m.recs.map (·.rtype)) ≠ [1] ∨ status = 0 then s else
  let mine := s.flt.held.filter fun h => h.1 == m.lane && h.2.1 == m.first
  each mine (fun h s =>
    let s := { s with flt.held := s.flt.held.erase h }
    match h.2.2 with
    | .cmd c => endPost c status 0 s
    | .table c b => endPublish c status (byteAt b 0) s
    | _ => s) s

/-- The Leader is PAIRED once the Second has answered every record up to the MARK of its switch (R440). -/
def settleSwitch (s : State) : State :=
  if s.flt.second.leading = 3 ∧ !(s.flt.sent.any fun m => m.recs.any (·.rtype == 0x0C)) then
    { s with flt.paired := true, flt.second.leading := 0, flt.second.asked := false }
  else s

/-- MLOG_RESPONSE. -/
def mlogResponse (lp tc : Nat) (p : Kmt) (s : State) : State :=
  if !running s ∨ !takesPackets s lp then s else
  let s := takeRx lp tc p s
  if !p.rsp ∨ !(partnerPorts s).contains lp ∨ p.dst ≠ selfEp s then s else
  match s.flt.sent.find? fun m => m.id % 2 ^ 24 == p.tag with
  | none => s
  | some m =>
    let n := fld p.payload 0 8
    let s := configFailed m p.status s
    let s := setLane m.lane (fun l => { l with acked := max l.acked n }) s
    let s := { s with flt.sent := s.flt.sent.filter fun q => q.lane != m.lane || decide (n < q.first + q.recs.length - 1) }
    settleAll (settleHeld (settleSwitch s))

/-- MLOG_TMO_EXPIRY: sent again, with RTX = 1, on another live Partner port if one exists (R424). -/
def mlogTmoExpiry (id : Nat) (s : State) : State :=
  if !running s then s else
  match s.flt.sent.find? (·.id == id) with
  | none => s
  | some m =>
    let s := atLeast (m.sentAt + bits (reg s 0x0A000000) 15 8 * 1000) s
    let ls := logPorts s ((m.recs.headD { rtype := 0, comp := 0, body := [] }).comp)
    let lp := ((ls.find? (· != m.lp)).or ls.head?).getD 0x3FF
    let m' := { m with lp, sentAt := s.clock.clk }
    let s := { s with flt.sent := modIf (·.id == id) (fun _ => m') s.flt.sent }
    if ls = [] then s else sendMlog m' true (count 0x0A000410 s)

/-! ### The Leader (R437, R439, R440) -/

/-- Compositions that a snapshot covers. -/
def mirroredComps (s : State) : List Nat := (s.comps.map (·.1)).filter fun k => compLive s k && mirrorBit s k && mirrorOk s k

/-- A CONFIG record of the snapshot. -/
def sendConfig (k op : Nat) (params : List Byte) (s : State) : State :=
  (logRec 0 { rtype := 1, comp := k, body := le 1 op ++ zeros 7 ++ params } s).1

/-- Ropes under a unit, children first. -/
def ropesUnder (s : State) : Nat → Nat → List Nat
  | 0, _ => []
  | n + 1, key => if isTile key then [] else ((eunit s key).members.map (ropesUnder s n)).flatten ++ [key]

/-- Records that set up a unit in a mirrored composition: its Ropes and its role. -/
def snapUnit (key : Nat) (s : State) : State :=
  let kind := if key < 128 then 0 else 1
  let u := eunit s key
  let s := each (ropesUnder s 65 key) (fun r s =>
    let v := eunit s r
    sendConfig u.comp 0x20 ([1] ++ le 1 kind ++ le 1 v.members.length ++ le 1 (r % 128) ++ le 2 v.gen ++ zeros 2 ++
      padMul 8 (v.members.map fun m => BitVec.ofNat 8 (m % 128))) s) s
  sendConfig u.comp 0x21 (le 1 (key % 128) ++ le 1 kind ++ le 1 u.role ++ [0] ++ le 2 u.gen ++ zeros 2) s

/-- Parameter area of a SPACE_MAP action. -/
def mapParams (act fl space log2 b5 tray off base cw ep : Nat) : List Byte :=
  le 1 act ++ le 1 fl ++ le 2 space ++ le 1 log2 ++ le 1 b5 ++ le 1 tray ++ [0] ++ le 8 off ++ le 8 base ++ le 8 cw ++ zeros 4 ++ le 4 ep ++ zeros 24

/-- Records that set up a space of a mirrored composition. -/
def snapSpace (k x : Nat) (s : State) : State :=
  let s := sendConfig k 0x10 (mapParams 1 0 x 0 0 0 0 0 0 0) s
  let s := each (s.xlt.extents.filter fun e => e.2.space == x && e.2.card.isNone && !e.2.draining) (fun e =>
    sendConfig k 0x10 (mapParams 3 (b2n e.2.hbm) x (Nat.log2 e.2.size) 0 e.2.tray e.2.offset (if e.2.hbm then 0 else e.2.base) 0
      (if e.2.hbm then 0 else trayEp s e.2.tray))) s
  each (s.dir.regions.filter fun r => r.2.space == x && !r.2.removing) (fun r s =>
    let g := r.2
    let s := sendConfig k 0x10 (mapParams 4 (2 * b2n g.conf + 4 * b2n g.cwEn) x (Nat.log2 g.size) g.mode 0 g.base 0 g.cwAddr 0) s
    if g.mode = 1 then (logRec 0 (cairnRec s g g.cairn) s).1 else s) s

/-- Records that set up a mirrored composition (R437). -/
def snapComp (k : Nat) (s : State) : State :=
  let c := comp s k
  let depth := fun q => (queue s k q).depth
  let s := if k = 0 then s else
    sendConfig k 0x50 (le 1 k ++ le 1 (b2n c.conf) ++ zeros 2 ++ ((List.range 4).map fun q => le 2 (depth q)).flatten ++ zeros 4 ++
      ((List.range 4).map fun i => le 4 (c.hbmQ.getD i 0)).flatten ++ le 4 c.trayQ ++ zeros 4) s
  let s := each ((s.eng.units.filter fun u => u.2.role != 0 && u.2.comp == k && u.2.parent.isNone).map (·.1)) snapUnit s
  let mine := (s.xlt.spaces.filter fun x => x.2.comp == k && !x.2.shadow).map (·.1)
  let s := each mine (snapSpace k) s
  let s := each (s.xlt.jobs.filter fun j => j.2.comp == k && !j.2.shadow) (fun j =>
    sendConfig k 0x12 (le 2 j.1 ++ zeros 2 ++ (j.2.pairs.map fun p => le 2 (p.1 + p.2 * 1024)).flatten)) s
  let s := each (s.eng.tables.filter fun t => t.2.comp == k && !t.2.shadow) (fun t s =>
    each t.2.vers (fun v => sendConfig k 0x42 (zeros 16 ++ v.bytes)) s) s
  each (s.dir.agents.filter fun a => ((mget s.dir.apts (a.1 / 512)).map mine.contains).getD false) (fun a s =>
    (logRec 0 (agentRec s (a.1 / 512) (a.1 % 512) a.2) s).1) s

/-- The Leader begins: its Partner is in SECONDING (R437). The lanes count from LSN 1 again. -/
def startLeading (s : State) : State :=
  let s := { s with
    flt.lanes := List.replicate 4 {}, flt.sent := [], flt.cfgBad := []
    flt.second := { leading := 1 } }
  each (mirroredComps s) snapComp s

/-- Chunks that the snapshot still has to send: space, offset, directory or data. -/
def snapLeft (s : State) : List (Nat × Nat × Bool) :=
  let mine := (s.xlt.spaces.filter fun x => !x.2.shadow && (mirroredComps s).contains x.2.comp).map (·.1)
  let data := (s.xlt.extents.filter fun e => e.2.hbm && e.2.card.isNone && mine.contains e.2.space).map fun e =>
    (List.range (e.2.size / 2048)).map fun i => (e.2.space, e.2.offset + 2048 * i, false)
  let dirs := (s.dir.regions.filter fun r => r.2.mode == 0 && mine.contains r.2.space).map fun r =>
    (List.range (r.2.size / 8192)).map fun i => (r.2.space, r.2.base + i / 4 * 32768 + i % 4 * 64, true)
  (data.flatten ++ dirs.flatten).filter fun q =>
    !(s.flt.second.pages.contains (if q.2.2 then dirChunkKey q.1 q.2.1 else chunkKey q.1 q.2.1))

/-- Sends a chunk of the snapshot on the lane of its page or slice. -/
def sendSnap (q : Nat × Nat × Bool) (s : State) : State :=
  let (x, a, dir) := q
  let head := le 2 x ++ le 1 (b2n dir) ++ zeros 5 ++ le 8 a
  if dir then
    let d := ((List.range 128).map fun i => entBytes (dirEnt s x (a + 256 * i))).flatten
    (logRec (sliceOf a) { rtype := 0x0D, comp := spaceComp s x, body := head ++ d }
      { s with flt.second.pages := s.flt.second.pages ++ [dirChunkKey x a] }).1
  else match extAt s x a with
    | none => s
    | some (_, e) =>
      (logRec (pageCrest (extAddr e a)) { rtype := 0x0D, comp := spaceComp s x, body := head ++ memAhead s (extAddr e a) 2048 }
        { s with flt.second.pages := s.flt.second.pages ++ [chunkKey x a] }).1

/-- A MARK on each lane, with the lane's digest of the window, which begins anew (R439). -/
def sendMarks (w : Nat) (s : State) : State :=
  each (List.range 4) (fun c s =>
    let s := (pushRec c { rtype := 0x0C, comp := 0, body := le 8 w ++ le 8 (lane s c).digest } s).1
    setLane c (fun l => { l with digest := 0 }) s) s

/-- SECOND_WINDOW_END at the Leader: the snapshot goes on at SNAP_RATE, and each window is marked once it is over. -/
def secondWindowEnd (s : State) : State :=
  if !running s ∨ s.flt.second.leading = 0 then s else
  let w := s.clock.tb / 10000
  let s := atLeast (s.clock.clk + (10000 - s.clock.tb % 10000)) { s with flt.second.window := w }
  match s.flt.second.leading with
  | 1 =>
    let left := snapLeft s
    if left = [] then
      let lanes := s.flt.lanes.map fun l => { l with digest := 0 }
      sendMarks w { s with flt.lanes := lanes, eng.insq := [], flt.second.leading := 2 }
    else each (left.take (max 1 (bits (reg s 0x0A000030) 31 16 * 10000 / 2048))) sendSnap s
  | 2 => settleSwitch (sendMarks w (if s.flt.second.asked then { s with flt.second.leading := 3 } else s))
  | _ => s

/-- PROMOTE_TMO_EXPIRY: the command ends with ABORTED, and the Second stays in SECONDING (R440). -/
def promoteTmoExpiry (s : State) : State :=
  if !running s ∨ !(s.cmd.longs.any (·.what == .promote)) then s else
  let s := atLeast (s.flt.second.promoteAt + reg s 0x0A000030 % 2 ^ 16 * 1000000) s
  let s := if s.flt.second.phase = 3 then { s with flt.second.phase := 2 } else s
  settleAll (finishAll .promote 0x41 [] s)

def execMlog (lp tc : Nat) (p : Kmt) (s : State) : Host.Outcome State Fault Refusal :=
  .next (if p.opcode = 0x80 then mlog lp tc p s else s)
def execMlogResponse (lp tc : Nat) (p : Kmt) (s : State) : Host.Outcome State Fault Refusal :=
  .next (if p.opcode = 0x80 then mlogResponse lp tc p s else s)
def execMlogTmoExpiry (id : Nat) (s : State) : Host.Outcome State Fault Refusal := .next (mlogTmoExpiry id s)
def execSecondWindowEnd (s : State) : Host.Outcome State Fault Refusal := .next (secondWindowEnd s)
def execPromoteTmoExpiry (s : State) : Host.Outcome State Fault Refusal := .next (promoteTmoExpiry s)

end Sys2Proof.Machine
end

