-- ==== Sys2Proof/Machine/Faults.lean ====
section
/-! DEFINITION. Heartbeats, pairing, fences, the loss of a Partner and the takeover (R419, R427 to R432, R441). -/

namespace Sys2Proof.Machine

/-! ### Heartbeats sent -/

/-- Does this Second ask its Leader to switch? Its heartbeats then set PAIRED (R440). -/
def asking (s : State) : Bool := seconding s && s.flt.second.phase == 3

/-- HBEAT body (Table 15-6). -/
def hbeatBody (s : State) (lost : Option Nat) : List Byte :=
  le 8 s.sec.nodeId ++ le 4 (selfEp s) ++ le 1 (devCode s.dev.devState) ++
  le 1 (b2n (s.flt.paired || asking s) + 2 * b2n s.flt.fenced + 4 * b2n lost.isSome) ++ zeros 2 ++ le 8 s.clock.tb ++ le 8 (lost.getD 0)

/-- Sends an HBEAT on every live KMT trunk port. -/
def sendBeats (lost : Option Nat) (s : State) : State :=
  each (trunkPorts s) (fun l s =>
    let b := hbeatBody s lost
    sendFrom inCtl l 6 { opcode := 0x81, len := b.length, src := selfEp s, dst := 0x3FFFF, payload := b } none s) s

/-- The Talik that heartbeats name as lost: the Partner declared lost, while FLT_PARTNER still names it (R430). -/
def lostNow (s : State) : Option Nat := if s.flt.peerLost && s.flt.lostNode == partnerNode s then some s.flt.lostNode else none

/-- HBEAT_TIMER: every 5 µs (R427). -/
def hbeatTimer (s : State) : State :=
  if !running s then s else
  let s := atLeast (s.flt.hbeatAt + 5000) s
  sendBeats (lostNow s) { s with flt.hbeatAt := s.clock.clk }

/-! ### Pairing and fences -/

/-- Nothing waits for the Partner any more: every gate opens. -/
def openGates (s : State) : State :=
  settleHeld { s with flt.lanes := s.flt.lanes.map fun l => { l with acked := l.nextLsn - 1 }, flt.sent := [] }

/-- PAIRED becomes 0: effects go on unmirrored. -/
def unpair (s : State) : State := if s.flt.paired then openGates { s with flt.paired := false } else s

/-- A fence of R428 lifts (R428, R435). -/
def liftFence (s : State) : State :=
  if s.flt.fenced && !s.flt.fenceKept then resumeFenced { s with flt.fenced := false } else s

/-- R419, at a heartbeat of the Partner: `names`, its FLT_PARTNER names this Talik; `h`, its HALF. The lanes of a new pair count
from LSN 1. -/
def settlePairing (names : Bool) (h : Nat) (s : State) : State :=
  let en := bit (reg s 0x0A000000) 0
  let clash := en && names && h == half s
  let ok := en && names && !clash && !s.flt.peerLost
  let s := { s with flt.halfClash := clash }
  if ok && !s.flt.paired then
    { s with flt.paired := true, flt.lanes := List.replicate 4 {}, flt.sent := [], flt.cfgBad := [] }
  else if !ok then unpair s
  else s

/-- After a write of FLT_CFG or FLT_PARTNER: MIRROR_EN 0 ends the pair; another Partner is judged by the heartbeats heard. -/
def settlePair (s : State) : State :=
  let s := if bit (reg s 0x0A000000) 0 then s else { unpair s with flt.halfClash := false }
  if s.flt.peerLost && s.flt.lostNode != partnerNode s then
    let h := s.flt.heard.find? fun h => h.2.1 == partnerNode s
    { s with flt.peerLost := false, flt.heardAt := h.map (·.2.2), flt.partnerEp := (h.map (·.1)).getD 0 }
  else s

/-- The promotion has come through: the Second is PAIRED and FULL; its units' work is the standby copy of the Leader's (R440). -/
def promoted (s : State) : State :=
  let s := each (s.eng.descs.filter fun d => !d.wantsStandby) (fun d => dropDesc d.id 0x41) s
  let descs := s.eng.descs.map fun d => { d with standby := true }
  let x : Second := { target := s.flt.second.target, cleanRun := s.flt.second.cleanRun, mismatchW := s.flt.second.mismatchW,
                      mismatchLanes := s.flt.second.mismatchLanes }
  let s := setDevState .full { s with flt.paired := true, flt.second := x, eng.descs := descs, eng.sent := [] }
  settleAll (finishAll .promote 0 [] s)

/-- A heartbeat of the Partner. -/
def fromPartner (ep code flags : Nat) (names : Bool) (h : Nat) (s : State) : State :=
  let s := liftFence { s with flt.heardAt := some s.clock.clk, flt.partnerEp := ep }
  if seconding s then (if s.flt.second.phase = 3 ∧ bit flags 0 ∧ !s.flt.second.lost then promoted s else s)
  else if code = 2 ∧ !s.flt.paired then
    let s := if s.flt.second.leading = 0 ∧ bit (reg s 0x0A000000) 0 then startLeading { s with flt.peerLost := false } else s
    if bit flags 0 then { s with flt.second.asked := true } else s
  else if code = 2 then s
  else settlePairing names h { s with flt.second := if s.flt.second.leading = 0 then s.flt.second else {} }

/-- A LOST notice (R430). -/
def lostNotice (node : Nat) (s : State) : State :=
  if node = s.sec.nodeId then selfStop 7 s
  else if s.flt.notices.any fun n => n.1 == node && decide (s.clock.clk < n.2 + 1000000) then s
  else
    let s := { s with flt.notices := (s.flt.notices.filter (·.1 != node)) ++ [(node, s.clock.clk)] }
    let s := sendBeats (some node) s
    each (s.eng.recs.filter fun r => r.node == node && s.eng.anchored.contains (r.comp, r.coll)) (fun r s => startWatch r r.epoch s) s

/-- HBEAT. -/
def hbeat (lp tc : Nat) (p : Kmt) (names : Bool) (h : Nat) (s : State) : State :=
  if !running s ∨ !takesPackets s lp ∨ modeOf s lp ≠ 3 then s else
  let s := takeRx lp tc p s
  if p.len ≠ 32 ∨ tc ≠ 6 ∨ p.rsp then count 0x03000400 s else
  let b := p.payload
  let node := fld b 0 8
  let ep := fld b 8 4 % 2 ^ 18
  let heard := (s.flt.heard.filter fun x => x.1 != ep && x.2.1 != node) ++ [(ep, node, s.clock.clk)]
  let s := { s with flt.heard := heard }
  let s := if partnerNode s ≠ 0 ∧ node = partnerNode s then fromPartner ep (byteAt b 12) (byteAt b 13) names h s else s
  if bit (byteAt b 13) 2 then lostNotice (fld b 24 8) s else s

/-- FENCE_US_EXPIRY (R428). -/
def fenceUsExpiry (s : State) : State :=
  match s.flt.heardAt with
  | none => s
  | some t =>
    if !running s ∨ !s.flt.paired ∨ s.flt.fenced then s else
    let s := atLeast (t + bits (reg s 0x0A000000) 23 16 * 1000) s
    fault 11 1 none 0 0 (partnerNode s) 9 { s with flt.fenced := true }

/-! ### The loss of the Partner (R429, R432, R441) -/

/-- Is the Talik connected: a KMT logical port that is not a Partner port is in service? -/
def connected (s : State) : Bool :=
  (s.lports.map (·.1)).any fun l => isLport s l && isKmt s l && live s l && !(partnerPorts s).contains l

/-- An open tray intent is sent again to the tray, in the lost Talik's name (R432). -/
def reissueIntent (i : Intent) (s : State) : State :=
  let s := count 0x0A000420 s
  let b := i.body
  let n := fld b 10 2
  let a := fld b 16 8
  let fail := fun (s : State) => tierFault 2 i.comp 0 (count 0x03000450 (closeIntent i.lane i.lsn 0x21 [] s))
  match trayOfEp s (fld b 0 4) with
  | none => fail s
  | some t =>
    match trayPick s t a with
    | none => fail s
    | some (lp, _) =>
      let pkt : Kmt :=
        { opcode := byteAt b 8, comp := i.comp, len := n, src := s.flt.partnerEp, dst := fld b 0 4, tag := fld b 4 4, chan := byteAt b 9
          addr := a, payload := slice b 24 n }
      let r : TrayReq :=
        { tag := fld b 4 4, tray := t, lp, tc := 1, crest := i.lane, pkt, ext := none, sentAt := s.clock.clk, reissued := true
          why := .intent i.lane i.lsn }
      sendTray r true { s with xlt.trays := s.xlt.trays ++ [r] }

/-- The request that completes an open directory transaction from its probes' answers (R432): the requester's own coherent
request while its agent is LIVE, or an uncached RD. Another's line is only recalled, or left as its probes leave it. -/
def txnReq (s : State) (x line op src probe : Nat) : LineReq :=
  let t : Txn := { space := x, line, req := { op := 0, whom := .post, pkt := {} } }
  let pkt := linePkt s t 0x01 []
  match (aptOf s x).bind fun apt => liveAgent s apt src with
  | some n => if isLineOp op then { op, agent := n, whom := .post, pkt } else { op := if op = 0x01 then 1 else 0, whom := .post, pkt }
  | none =>
    if op = 0x01 then { op, whom := .post, pkt }
    else if probe = 0x39 then { op := 0x34, agent := 512, whom := .post, pkt }
    else { op := 0, whom := .post, pkt }

/-- The probes of an open directory transaction are sent again (R432). -/
def reissueTxn (i : Intent) (s : State) : State :=
  let b := i.body
  let x := fld b 0 2
  let line := fld b 8 8
  let apt := (aptOf s x).getD 64
  let ps : List Probe := (List.range (fld b 2 2)).map fun j =>
    let o := 32 + 8 * j
    { tag := fld b (o + 4) 4, agent := fld b o 2, ep := (agentAt s apt (fld b o 2)).ep, op := byteAt b (o + 2), sentAt := s.clock.clk, rtx := true }
  let t : Txn := { space := x, line, req := txnReq s x line (byteAt b 24) (fld b 16 4) ((ps.head?.map (·.op)).getD 0), phase := 1, probes := ps }
  each ps (fun p s => sendProbe x line p true none (count 0x0A000428 s)) { s with dir.txns := s.dir.txns ++ [t] }

/-- Shadow objects are the survivor's own from now on. -/
def ownShadows (s : State) : State :=
  let spaces := s.xlt.spaces.map fun x => (x.1, { x.2 with shadow := false })
  let jobs := s.xlt.jobs.map fun j => (j.1, { j.2 with shadow := false })
  let tables := s.eng.tables.map fun t => (t.1, { t.2 with shadow := false, vers := t.2.vers.map fun v => { v with held := false } })
  retireVersions { s with xlt.spaces := spaces, xlt.jobs := jobs, eng.tables := tables }

/-- The Partner is declared lost: its work is taken over (R429, R432). -/
def takeover (s : State) : State :=
  let node := partnerNode s
  let s := { s with flt.peerLost := true, flt.lostNode := node, flt.notices := s.flt.notices ++ [(node, s.clock.clk)] }
  let s := fault 10 1 none 0 0x0A000418 node 9 (count 0x0A000418 s)
  let s := openGates { s with flt.paired := false, flt.second := {}, flt.takeover := true }
  let s := ownShadows (sendBeats (some node) (liftFence s))
  let tray := s.flt.intents.filter (!·.dir)
  let dirs := s.flt.intents.filter (·.dir)
  let s := each dirs reissueTxn (each tray reissueIntent s)
  settleAll (claimLost s.flt.partnerEp s)

/-- LOST_US_EXPIRY (R429, R441). -/
def lostUsExpiry (s : State) : State :=
  let follows := seconding s && !s.flt.second.lost
  match s.flt.heardAt with
  | none => s
  | some t =>
    if !running s ∨ s.flt.fenceKept ∨ !(s.flt.paired || follows || decide (0 < s.flt.second.leading)) then s else
    let s := atLeast (t + bits (reg s 0x0A000000) 31 24 * 1000) s
    if seconding s then
      settleAll (fault 10 2 none 0 0x0A000418 (partnerNode s) 9 (count 0x0A000418 { s with flt.second.lost := true }))
    else if connected s then takeover s
    else fault 11 2 none 0 0 (partnerNode s) 9 { s with flt.fenced := true, flt.fenceKept := true }

/-- TAKEOVER_DONE: the last reissued intent and probe have closed (R432). -/
def takeoverDone (s : State) : State :=
  if !running s ∨ !s.flt.takeover then s else
  let busy := fun (i : Intent) => i.dir && (findTxn s (fld i.body 0 2) (fld i.body 8 8)).isSome
  let s := { s with flt.intents := s.flt.intents.filter fun i => !i.dir || busy i }
  if s.flt.intents ≠ [] then s
  else fault 12 1 none 0 0 0 9 { s with flt.takeover := false }

def execHbeatTimer (s : State) : Host.Outcome State Fault Refusal := .next (hbeatTimer s)
def execHbeat (lp tc : Nat) (p : Kmt) (names : Bool) (h : Nat) (s : State) : Host.Outcome State Fault Refusal :=
  .next (if p.opcode = 0x81 then hbeat lp tc p names h s else s)
def execFenceUsExpiry (s : State) : Host.Outcome State Fault Refusal := .next (fenceUsExpiry s)
def execLostUsExpiry (s : State) : Host.Outcome State Fault Refusal := .next (lostUsExpiry s)
def execTakeoverDone (s : State) : Host.Outcome State Fault Refusal := .next (takeoverDone s)

end Sys2Proof.Machine
end

