-- ==== Sys2Proof/Machine/Answers.lean ====
section
/-! DEFINITION. What comes back to the load/store units and the directory: answers of the memory units, the trays and the
agents, and the timers that wait for them (chapters 4 and 5). Each may set free what waits anywhere in the block. -/

namespace Sys2Proof.Machine

/-- Does an operation write? -/
def opWrites : MemOp → Bool
  | .read _ => false
  | _ => true

/-- HBM_RESPONSE (R116): the memory units perform one operation, with the ECC words found uncorrectable (R505). A write that
meets a card's release word evaluates its gates (R330); a word lost under a card's window is filled again (R333). -/
def hbmResponse (id : Nat) (ue : List Nat) (s : State) : State :=
  match s.xlt.ops.find? (·.id == id) with
  | none => s
  | some o =>
    if !running s ∨ opBlocked s o then s else
    let s := hbmFinish id ue s
    let s := if opWrites o.op then gateOpenAt o.addr (opLen o.op) s else s
    settleAll (each (ueWords o ue) unfillWord s)

/-- TRAY_RESPONSE (R130). A TFENCE that an endpoint sends as a request is refused by Table 4-3. -/
def trayResponse (lp tc : Nat) (p : Kmt) (s : State) : State :=
  if !p.rsp then (if p.opcode = 0x22 then loadStore lp tc p s else s)
  else if !takesPackets s lp then s else settleAll (trayAnswer p (takeRx lp tc p s))

/-- PROBE_RESPONSE (R158). A probe that an endpoint sends as a request is refused by Table 4-3. -/
def probeResponse (lp tc : Nat) (p : Kmt) (s : State) : State :=
  if !p.rsp then (if 0x38 ≤ p.opcode ∧ p.opcode ≤ 0x3A then loadStore lp tc p s else s)
  else if !takesPackets s lp then s else settleAll (probeAnswer p (takeRx lp tc p s))

/-- An event of the hardware, which then lets everything go on; with the clocks stopped nothing happens. -/
def whenRunning (f : State → State) (s : State) : State := if running s then settleAll (f s) else s

def execHbmResponse (id : Nat) (ue : List Nat) (s : State) : Host.Outcome State Fault Refusal := .next (hbmResponse id ue s)
def execTrayResponse (lp tc : Nat) (p : Kmt) (s : State) : Host.Outcome State Fault Refusal := .next (trayResponse lp tc p s)
def execProbeResponse (lp tc : Nat) (p : Kmt) (s : State) : Host.Outcome State Fault Refusal := .next (probeResponse lp tc p s)
def execTrayTmoExpiry (id : Nat) (s : State) : Host.Outcome State Fault Refusal := .next (whenRunning (trayTmoExpiry id) s)
def execDrainTimeout (ext : Nat) (s : State) : Host.Outcome State Fault Refusal := .next (whenRunning (drainTimeout ext) s)
def execLineTransactionDone (space line : Nat) (s : State) : Host.Outcome State Fault Refusal :=
  .next (whenRunning (lineTransactionDone space line) s)
def execDirEntryFill (space line : Nat) (ue : Bool) (s : State) : Host.Outcome State Fault Refusal :=
  .next (whenRunning (dirEntryFill space line ue) s)
def execBelayHoldExpiry (space line agent : Nat) (s : State) : Host.Outcome State Fault Refusal :=
  .next (whenRunning (belayHoldExpiry space line agent) s)
def execProbeTmoExpiry (id : Nat) (s : State) : Host.Outcome State Fault Refusal := .next (whenRunning (probeTmoExpiry id) s)
def execDeadUsExpiry (apt agent : Nat) (s : State) : Host.Outcome State Fault Refusal := .next (whenRunning (deadUsExpiry apt agent) s)
def execReclaimWalkDone (apt agent : Nat) (s : State) : Host.Outcome State Fault Refusal :=
  .next (whenRunning (reclaimWalkDone apt agent) s)
def execRecallWalkDone (id : Nat) (s : State) : Host.Outcome State Fault Refusal := .next (whenRunning (recallWalkDone id) s)

end Sys2Proof.Machine
end

