-- ==== Sys2Proof/Machine/Access.lean ====
section
/-! DEFINITION. Changes of role and scrubs (chapter 6), and the register rows (chapters 12 and 17): a write or a read of one
register on one of the paths of R469, REG_WRITE, and the control registers that have a row of their own. -/

namespace Sys2Proof.Machine

/-! ### Roles -/

def execRoleAssign (comp q : Nat) (s : State) : Host.Outcome State Fault Refusal :=
  .next (settleAll (runCmd comp q 0x21 anyAct (roleAssignBody stopKey) s))
def execRoleDrainTimeout (k : UKind) (unit : Nat) (s : State) : Host.Outcome State Fault Refusal :=
  .next (whenRunning (roleDrainTimeout k unit) s)
def execRoleScrubStart (k : UKind) (unit : Nat) (s : State) : Host.Outcome State Fault Refusal :=
  .next (whenRunning (roleScrubStart (ukey k unit) (unitIdle s (ukey k unit))) s)
def execRoleScrubDone (k : UKind) (unit : Nat) (s : State) : Host.Outcome State Fault Refusal := .next (whenRunning (roleDone k unit) s)

/-! ### Paths -/

/-- The open session of an ID. -/
def sessAt (s : State) (n : Nat) : Option Session := s.sec.sessions.find? (·.id == n)

/-- In BIVOUAC a management access reaches only the HUT and SEC blocks (R463). -/
def frozenOut (s : State) (a : Nat) : Bool := decide (s.dev.devState = .bivouac) && a / 2 ^ 24 != 0 && a / 2 ^ 24 != 9

/-- May a path write the register at an address now (R463, R469)? -/
def pathWrites (s : State) (path : RegPath) (a : Nat) : Bool :=
  match path with
  | .cmd => cmdPathUp s
  | .mgmt n => mgmtUp s && !frozenOut s a && ((sessAt s n).map fun q => if q.recovery then a == 0x18 else bit q.rights 1).getD false
  | .capsule => !dead s
  | _ => false

/-- Does a path reach registers of path M (R469)? -/
def pathM : RegPath → Bool
  | .mgmt _ => true
  | .capsule => true
  | _ => false

/-- What a register write sets free: the pairing is judged again, and everything goes on. -/
def afterWrite (s : State) : State :=
  let s := settlePair s
  if running s then settleAll s else s

/-- A register is written on a path (R469). -/
def writeOn (path : RegPath) (a : Nat) (v : Word) (s : State) : State :=
  if pathWrites s path a then afterWrite (writeWord (pathM path) path a v.toNat s).2 else s

/-- PORT_CFG, PORT_KMT_CFG or PORT_LCFG of a port (R398). -/
def isPortCfg (a : Nat) : Bool :=
  within a 0x01000000 0x01600000 && (a % 0x10000 == 0 || a % 0x10000 == 0x10 || within (a % 0x10000) 0x20 0x40)

/-- A read of the low word of a counter on a path (R472). -/
def counterReadClear (path : RegPath) (a : Nat) (s : State) : State :=
  let may := match path with
    | .cmd => cmdPathUp s
    | .mgmt n => mgmtUp s && !frozenOut s a && ((sessAt s n).map fun q => bit q.rights 0 && !q.recovery).getD false
    | .readout => !dead s
    | _ => false
  if may && isCounter a then (readWord path (pathM path) a s).2 else s

/-- REG_WRITE (R351, R473). -/
def regWriteBody (c : CmdRec) (s : State) : CmdRes × State :=
  let ws := (List.range (pf c 4 4)).map fun i => (pf c 0 4 + 4 * i, pf c (8 + 4 * i) 4)
  let r := writeWords false .cmd s ws s
  (.done r.1, settlePair r.2)

/-! ### Meanings -/

def execRegWrite (comp q : Nat) (s : State) : Host.Outcome State Fault Refusal :=
  .next (settleAll (runCmd comp q 0x03 anyAct regWriteBody s))
def execPortCfgWrite (path : RegPath) (addr : Nat) (v : Word) (s : State) : Host.Outcome State Fault Refusal :=
  .next (if isPortCfg addr then writeOn path addr v s else s)
def execPortCtlRetrain (path : RegPath) (port : Nat) (v : Word) (s : State) : Host.Outcome State Fault Refusal :=
  .next (if port < 96 then writeOn path (portReg port 0x1C) v s else s)
def execEngCtlReset (path : RegPath) (unit : Nat) (v : Word) (s : State) : Host.Outcome State Fault Refusal :=
  .next (if unit < 64 then writeOn path (0x05000000 + 0x10000 * unit) v s else s)
def execEngRopeCtlReset (path : RegPath) (unit : Nat) (v : Word) (s : State) : Host.Outcome State Fault Refusal :=
  .next (if 64 ≤ unit ∧ unit < 128 then writeOn path (0x05400000 + 0x100 * (unit - 64)) v s else s)
def execHaulCtlReset (path : RegPath) (unit : Nat) (v : Word) (s : State) : Host.Outcome State Fault Refusal :=
  .next (if unit < 32 then writeOn path (0x06000000 + 0x10000 * unit) v s else s)
def execHaulRopeCtlReset (path : RegPath) (unit : Nat) (v : Word) (s : State) : Host.Outcome State Fault Refusal :=
  .next (if 32 ≤ unit ∧ unit < 64 then writeOn path (0x06400000 + 0x100 * (unit - 32)) v s else s)
def execCmdAttnCauseW1c (path : RegPath) (v : Word) (s : State) : Host.Outcome State Fault Refusal :=
  .next (writeOn path 0x08000008 v s)
def execCounterReadClear (path : RegPath) (addr : Nat) (s : State) : Host.Outcome State Fault Refusal :=
  .next (counterReadClear path addr s)
def execRegisterWrite (path : RegPath) (addr : Nat) (v : Word) (s : State) : Host.Outcome State Fault Refusal :=
  .next (writeOn path addr v s)

end Sys2Proof.Machine
end

