-- ==== Sys2Proof/Machine/Mgmt.lean ====
section
/-! DEFINITION. The management network (chapters 13 and 16): sessions, register messages, SPDM, keys, capsule, image and
ownership. -/

namespace Sys2Proof.Machine

/-! ### Chains and sessions (R382 to R384, R454) -/

/-- A certificate chain that holds (R384): the leaf's key and the key at which it ends. -/
def chainEnds (chain : List (List Byte)) : Option (List Byte × List Byte) :=
  if chain = [] ∨ 4 < chain.length ∨ chain.any fun c => decide (4096 < c.length) then none
  else match Config.chainKey chain, Config.chainRoot chain with
    | some k, some r => some (k, r)
    | _, _ => none

/-- One self-signed certificate. -/
def selfSigned (chain : List (List Byte)) (k r : List Byte) : Bool := chain.length == 1 && k == r

/-- What a controller's chain opens (R384, R454): its key, rights, compositions, and whether only the HUT block is read. -/
def admits (s : State) (chain : List (List Byte)) : Option (List Byte × Nat × Nat × Bool) :=
  match chainEnds chain with
  | none => none
  | some (k, r) =>
    if recovery s then
      if s.sec.owned then (if s.dev.flash.owner = some r then some (k, 0, 0, false) else none)
      else if selfSigned chain k r then some (k, 0, 0, false) else none
    else match (s.sec.capsule.map fun c => c.anchors.take 16).bind fun l => l.find? (·.key == r) with
      | some a => some (k, a.rights, a.comps, false)
      | none => if !s.sec.owned && selfSigned chain k r then some (k, 0x24, 0, true) else none

/-- The Talik's chain (R382): in recovery it ends at the DIK certificate (R454). -/
def ownChain (s : State) : List (List Byte) :=
  if recovery s then Config.deviceCerts else Config.deviceCerts ++ [Config.aliasCert (Config.mldsaPublic (aliasSeed s)) dikSeed]

/-- Signs a digest as the Talik: with the alias key, in recovery with the DIK. -/
def signed (s : State) (digest : List Byte) (hedge : Nat) : List Byte :=
  Config.mldsaSign (if recovery s then dikSeed else aliasSeed s) digest hedge

/-- HELLO (R382 to R384, R456). -/
def hello (peer : Nat) (nonce : List Byte) (chain : List (List Byte)) (s : State) : State :=
  if !mgmtUp s then s
  else if !s.sec.pufOk then emit (.shake peer 2 0x60 []) s
  else if 8 ≤ s.sec.sessions.length then emit (.shake peer 2 0x02 []) s
  else match admits s chain with
    | none => emit (.shake peer 2 0x13 []) (count 0x09000400 s)
    | some (key, rights, comps, hutOnly) =>
      let mine := le 32 (freeVal s)
      let s := useFree s
      let seed := freeVal s
      let s := useFree s
      let said := nonce ++ chain.flatten ++ mine ++ (ownChain s).flatten ++ Config.mlkemPublic seed
      let sig := signed s (Config.sha3 said) (freeVal s)
      let k : Shake := { peer, rights, comps, hutOnly, recovery := recovery s, key, seed, said := said ++ sig }
      emit (.shake peer 2 0 ([mine] ++ ownChain s ++ [Config.mlkemPublic seed, sig]))
        (useFree { s with sec.shakes := s.sec.shakes.filter (·.peer != peer) ++ [k] })

/-- KEX (R382): the session opens and FINISH carries its ID. -/
def kex (peer : Nat) (ct sig : List Byte) (s : State) : State :=
  match s.sec.shakes.find? (·.peer == peer) with
  | none => s
  | some k =>
    if !mgmtUp s then s else
    let s := { s with sec.shakes := s.sec.shakes.filter (·.peer != peer) }
    if 8 ≤ s.sec.sessions.length then emit (.shake peer 4 0x02 []) s
    else match Config.mlkemDecap k.seed ct with
      | none => emit (.shake peer 4 0x13 []) (count 0x09000400 s)
      | some ss =>
        if !Config.mldsaVerify k.key (Config.sha3 (k.said ++ ct)) sig then emit (.shake peer 4 0x13 []) (count 0x09000400 s)
        else match firstFree (fun n => (sessAt s (n + 1)).isSome) 0 8 with
          | none => s
          | some n =>
            let th := Config.sha3 (k.said ++ ct ++ sig)
            let q : Session :=
              { id := n + 1, peer, rights := k.rights, comps := k.comps, hutOnly := k.hutOnly, recovery := k.recovery
                keyIn := Config.sha3 (ss ++ th ++ [1]), keyOut := Config.sha3 (ss ++ th ++ [2]), tx := 1, at_ := s.clock.clk }
            emit (.mgmt (n + 1) 1 4 0 (le 4 (n + 1))) { s with sec.sessions := s.sec.sessions ++ [q] }

/-- A session ends, with the words that its path latched and held. -/
def endSession (n : Nat) (s : State) : State :=
  { s with sec.sessions := s.sec.sessions.filter (·.id != n)
           latched := s.latched.filter fun l => decide (l.1 ≠ .mgmt n)
           heldLow := s.heldLow.filter fun l => decide (l.1 ≠ .mgmt n) }

/-- MGMT_SESSION_IDLE (R383). -/
def mgmtSessionIdle (n : Nat) (s : State) : State :=
  match sessAt s n with
  | none => s
  | some q => if !mgmtUp s then s else endSession n (atLeast (q.at_ + bits (reg s 0x09000010) 15 8 * 1000000000) s)

/-! ### Messages (Table 13-6) -/

/-- Answer to a message: status and payload. -/
abbrev Answer := Nat × List Byte

/-- A message in a session (R383, Table 13-6): dropped for its tag or SEQ, DENIED without its right, or served and answered. -/
def sessionMsg (h : MgmtHdr) (mop : Nat) (may : Session → Bool) (body : Session → State → Answer × State) (s : State) : State :=
  match sessAt s h.sess with
  | none => s
  | some q =>
    if !mgmtUp s then s
    else if !h.tagOk ∨ h.seq ≠ q.rx + 1 then count 0x09000408 s
    else if 2 ^ 32 < h.seq then endSession h.sess s
    else
      let q := { q with rx := h.seq, tx := q.tx + 1, at_ := s.clock.clk }
      let s := { s with sec.sessions := modIf (·.id == h.sess) (fun _ => q) s.sec.sessions }
      if !may q then emit (.mgmt h.sess q.tx mop 0x13 []) s
      else
        let r := body q s
        emit (.mgmt h.sess q.tx mop r.1.1 r.1.2) r.2

/-- Rights R W A K P C O by number (Table 13-6). A recovery session has none of them (R454). -/
def mayDo (n : Nat) (q : Session) : Bool := !q.recovery && bit q.rights n

/-- Words from an address, all in some blocks. -/
def wordsIn (bs : List Nat) (a n : Nat) : Bool := bs.contains (a / 2 ^ 24) && bs.contains ((a + 4 * (n - 1)) / 2 ^ 24)

/-- REG_READ of a session (R351, R384, R454, R463, R469). -/
def mgmtRegRead (h : MgmtHdr) (a n : Nat) (s : State) : State :=
  sessionMsg h 0x10
    (fun q => if q.recovery then wordsIn [0, 9] a n else if q.hutOnly then wordsIn [0] a n else bit q.rights 0)
    (fun q s =>
      if a % 4 ≠ 0 ∨ n = 0 ∨ 64 < n then ((0x11, []), s)
      else if s.dev.devState = .bivouac ∧ !((List.range n).all fun i => !frozenOut s (a + 4 * i)) then ((0x02, []), s)
      else if windowsEnd < a + 4 * n then ((0x12, []), s)
      else
        let r := readWords (.mgmt q.id) true n a s
        ((0, (r.1.map (le 4)).flatten), r.2)) s

/-- REG_WRITE of a session (R351, R454, R463, R469, R473). -/
def mgmtRegWrite (h : MgmtHdr) (a : Nat) (ws : List Word) (s : State) : State :=
  let act := fun (q : Session) (s : State) =>
      if a % 4 ≠ 0 ∨ ws = [] ∨ 64 < ws.length then ((0x11, []), s)
      else if s.dev.devState = .bivouac ∧ !((List.range ws.length).all fun i => !frozenOut s (a + 4 * i)) then ((0x02, []), s)
      else
        let r := writeWords true (.mgmt q.id) s ((ws.zip (List.range ws.length)).map fun w => (a + 4 * w.2, w.1.toNat)) s
        ((r.1, []), r.2)
  afterWrite (sessionMsg h 0x11 (fun q => if q.recovery then a == 0x18 && ws.length == 1 else bit q.rights 1) act s)

/-! ### Attestation (R385, Table 13-5) -/

/-- The measurements of Table 13-5. -/
def measurement (s : State) (i : Nat) : List Byte :=
  match i with
  | 1 => Config.romDigest
  | 2 => (s.sec.image.map fwDigest).getD []
  | 3 => (s.sec.capsule.map fun c => Config.sha3 c.bytes).getD (zeros 32)
  | 4 => (s.sec.ownerMeas.map Config.sha3).getD (zeros 32)
  | 5 => Config.sha3 (le 4 (partId s) ++ le 4 (liveWord true s 0x09000004) ++ Config.helperVersion)
  | 6 => Config.sha3 ((List.range 64).map fun k => le 4 (secComp0 s k) ++ le 4 (secComp4 s k)).flatten
  | _ => Config.mlkemPublic s.sec.krSeed

/-- One measurement block: index, DMTF specification, size, value type, value size, value. -/
def measBlock (s : State) (i : Nat) : List Byte :=
  let v := measurement s i
  let t := if i = 1 then 0 else if i = 2 then 1 else if i = 5 then 2 else if i = 16 then 0x83 else 3
  le 1 i ++ le 1 1 ++ le 2 (v.length + 3) ++ le 1 t ++ le 2 v.length ++ v

/-- An SPDM response: version 1.3, code, two parameters. -/
def spdm (code p1 p2 : Nat) (rest : List Byte) : Answer := (0, le 1 0x13 ++ le 1 code ++ le 1 p1 ++ le 1 p2 ++ rest)

/-- SPDM ERROR with a code. -/
def spdmError (code data : Nat) : Answer := spdm 0x7F code data []

/-- An SPDM request. -/
def attest (h : MgmtHdr) (f : State → Answer × State) (s : State) : State := sessionMsg h 0x20 (mayDo 2) (fun _ s => f s) s

/-- A signed response: the alias key signs SHA3-256 of the response before the signature. -/
def spdmSigned (a : Answer) (s : State) : Answer × State :=
  ((a.1, a.2 ++ signed s (Config.sha3 a.2) (freeVal s)), useFree s)

/-- The certificate chain of slot 0. -/
def slotChain (s : State) : List Byte := (ownChain s).flatten

def getVersion (h : MgmtHdr) (s : State) : State := attest h (fun s => ((0, [0x10, 0x04, 0, 0, 0, 1, 0, 0x13]), s)) s
/-- CERT_CAP, CHAL_CAP, MEAS_CAP with signatures, MEAS_FRESH_CAP. -/
def getCapabilities (h : MgmtHdr) (s : State) : State := attest h (fun s => (spdm 0x61 0 0 (le 4 0x36), s)) s
/-- DMTF measurements, SHA3-256 for both hashes, no BaseAsymAlgo, the ExtAsym entry of SEC_SPDM_EXTASYM: each where it is offered. -/
def negotiateAlgorithms (h : MgmtHdr) (hash ext : Bool) (s : State) : State :=
  attest h (fun s => (spdm 0x63 0 0 (le 1 1 ++ le 4 (b2n hash * 16) ++ le 4 0 ++ le 4 (b2n hash * 8) ++
    (if ext then le 1 1 ++ le 4 (liveWord true s 0x09000018) else le 1 0)), s)) s
def getDigests (h : MgmtHdr) (s : State) : State := attest h (fun s => (spdm 0x01 0 1 (Config.sha3 (slotChain s)), s)) s
def getCertificate (h : MgmtHdr) (slot offset length : Nat) (s : State) : State :=
  attest h (fun s =>
    let c := slotChain s
    if slot ≠ 0 ∨ c.length ≤ offset then (spdmError 1 0, s)
    else
      let p := (c.drop offset).take length
      (spdm 0x02 0 0 (le 2 p.length ++ le 2 (c.length - offset - p.length) ++ p), s)) s
def challenge (h : MgmtHdr) (slot : Nat) (nonce : List Byte) (s : State) : State :=
  attest h (fun s =>
    if slot ≠ 0 then (spdmError 1 0, s)
    else
      let mine := le 32 (freeVal s)
      let s := useFree s
      spdmSigned (spdm 0x03 0 1 (Config.sha3 (slotChain s) ++ mine ++ nonce)) s) s
def getMeasurements (h : MgmtHdr) (index : Nat) (nonce : List Byte) (s : State) : State :=
  attest h (fun s =>
    let all := [1, 2, 3, 4, 5, 6, 16]
    let mine := le 32 (freeVal s)
    let sign := fun (p1 : Nat) (bs : List (List Byte)) =>
      spdmSigned (spdm 0x60 p1 0 (le 1 bs.length ++ le 3 bs.flatten.length ++ bs.flatten ++ mine ++ nonce)) (useFree s)
    if index = 0 then sign 7 []
    else if index = 0xFF then sign 0 (all.map (measBlock s))
    else if all.contains index then sign 0 [measBlock s index]
    else (spdmError 1 0, s)) s
/-- Any other request: UnsupportedRequest (R385). -/
def spdmUnsupported (h : MgmtHdr) (code : Nat) (s : State) : State :=
  let known := [0x84, 0xE1, 0xE3, 0x81, 0x82, 0x83, 0xE0]
  if known.contains code then s else attest h (fun s => (spdmError 7 code, s)) s

/-! ### Keys (R386 to R388, R76) -/

/-- "KWRAP". -/
def txtWrap : List Byte := [0x4B, 0x57, 0x52, 0x41, 0x50]

/-- Opens a wrapped key (R386): `who` and `gen` as they enter the KEK, `aad` the additional data. -/
def openWrapped (s : State) (who gen aad ct wrapped : List Byte) : Option (List Byte) :=
  (Config.mlkemDecap s.sec.krSeed ct).bind fun ss =>
    Config.gcmOpen (Config.sha3 (ss ++ txtWrap ++ who ++ gen ++ le 8 s.sec.nodeId)) (zeros 12) aad wrapped

/-- KEY_INSTALL by Table 13-8. -/
def keyInstallBody (k kind g : Nat) (resv : Bool) (ct wrapped : List Byte) (s : State) : Answer × State :=
  let no := fun (st : Nat) (bs : List Byte) => ((st, bs), count 0x09000418 s)
  let high := mgetD s.sec.kgenHigh k 0
  if !compLive s k then no 0x51 []
  else if kind ≠ 1 ∨ g = 0 ∨ resv then no 0x11 []
  else if g ≤ high then no 0x31 (le 2 high)
  else if 4 ≤ (kgens s k).length then no 0x15 []
  else match openWrapped s (le 1 k) (le 2 g) (le 1 k ++ le 1 kind ++ le 2 g ++ zeros 4) ct wrapped with
    | none => no 0x13 []
    | some key => ((0, []), count 0x09000410 { s with sec.keys := s.sec.keys ++ [(k, g, key)], sec.kgenHigh := mset s.sec.kgenHigh k g })

/-- The right K, for a composition of the anchor's mask. -/
def mayKey (k : Nat) (q : Session) : Bool := mayDo 3 q && bit q.comps k

def keyInstall (h : MgmtHdr) (k kind g : Nat) (resv : Bool) (ct wrapped : List Byte) (s : State) : State :=
  sessionMsg h 0x30 (mayKey k) (fun _ s => keyInstallBody k kind g resv ct wrapped s) s

/-- KEY_RETIRE (R388, R294). -/
def keyRetire (h : MgmtHdr) (k g : Nat) (s : State) : State :=
  let s := sessionMsg h 0x31 (mayKey k)
    (fun _ s => if (kgens s k).contains g then ((0, []), retireGen k g s) else ((0x11, []), s)) s
  if running s then settleAll s else s

/-- A secure association key is installed on a port's transmit or receive channel. -/
def installSa (lp : Nat) (tx : Bool) (a : Sa) (s : State) : State :=
  setLport lp (fun l =>
    if tx then { l with txSa := l.txSa.filter (·.an != a.an) ++ [a], txAn := some a.an, rekeyed := false }
    else { l with rxSa := l.rxSa.filter (·.an != a.an) ++ [a] }) s

/-- SAK_INSTALL (R75 to R77, R386). -/
def sakInstall (h : MgmtHdr) (lp : Nat) (tx : Bool) (an ssci : Nat) (salt : List Byte) (pn : Nat) (ct wrapped : List Byte) (s : State) : State :=
  sessionMsg h 0x32 (mayDo 4)
    (fun _ s =>
      if !isLport s lp ∨ 4 ≤ an ∨ salt.length ≠ 12 then ((0x11, []), s)
      else match openWrapped s (le 2 lp) (le 2 an) (le 2 lp ++ le 1 (b2n tx) ++ le 1 an ++ le 4 ssci) ct wrapped with
        | none => ((0x13, []), s)
        | some key => ((0, []), installSa lp tx { an, ssci, salt, key, pn } s)) s

/-! ### Capsule, image and ownership (R377 to R379, R455) -/

/-- CAPSULE_WRITE: into flash, for the next cold reset. -/
def capsuleWrite (h : MgmtHdr) (c : Capsule) (s : State) : State :=
  sessionMsg h 0x40 (mayDo 6) (fun _ s => ((0, []), { s with dev.flash.capsule := some c })) s

/-- MIN_FW_SVN of the capsule in flash, where it verifies under the owner key (R455). -/
def flashMinSvn (s : State) : Nat :=
  match s.dev.flash.capsule, s.dev.flash.owner with
  | some c, some o => if capsuleSigned o c then c.minFwSvn else 0
  | _, _ => 0

/-- IMAGE_WRITE (R374, R455): checked before flash is erased; in recovery a cold reset follows 10 µs after the reply. -/
def imageWrite (h : MgmtHdr) (i : Image) (s : State) : State :=
  sessionMsg h 0x41 (fun q => q.recovery || bit q.rights 6)
    (fun q s =>
      if (imageErr i).isSome then ((0x22, []), s)
      else if i.svn < flashMinSvn s then ((0x31, []), s)
      else
        let s := { s with dev.flash.image := some i }
        let r : ResetReq := { cold := true, cause := 5, due := s.clock.clk + 10000 }
        ((0, []), if q.recovery then { s with dev.resetReq := some r } else s)) s

/-- OWNER_CLAIM (R378). -/
def ownerClaim (h : MgmtHdr) (key : List Byte) (s : State) : State :=
  sessionMsg h 0x42 (mayDo 5)
    (fun _ s =>
      if s.sec.owned then ((0x13, []), s)
      else ((0, []), { s with sec.owned := true, dev.flash.owner := some key, dev.flash.capSvn := 0 })) s

/-- "RELEASE". -/
def txtRelease : List Byte := [0x52, 0x45, 0x4C, 0x45, 0x41, 0x53, 0x45]

/-- OWNER_RELEASE (R378): the anchor and the capsule go; UNOWNED from the next cold reset. -/
def ownerRelease (h : MgmtHdr) (sig : List Byte) (s : State) : State :=
  sessionMsg h 0x43 (mayDo 6)
    (fun _ s =>
      if s.sec.owned && (s.dev.flash.owner.any fun o => Config.mldsaVerify o (txtRelease ++ le 8 s.sec.nodeId) sig) then
        ((0, []), { s with dev.flash.owner := none, dev.flash.capsule := none, dev.flash.capSvn := 0 })
      else ((0x13, []), s)) s

/-! ### Meanings -/

def execHello (peer : Nat) (nonce : List Byte) (chain : List (List Byte)) (s : State) : Host.Outcome State Fault Refusal :=
  .next (hello peer nonce chain s)
def execKex (peer : Nat) (ct sig : List Byte) (s : State) : Host.Outcome State Fault Refusal := .next (kex peer ct sig s)
def execMgmtSessionIdle (sess : Nat) (s : State) : Host.Outcome State Fault Refusal := .next (mgmtSessionIdle sess s)
def execMgmtRegRead (h : MgmtHdr) (addr count : Nat) (s : State) : Host.Outcome State Fault Refusal := .next (mgmtRegRead h addr count s)
def execMgmtRegWrite (h : MgmtHdr) (addr : Nat) (words : List Word) (s : State) : Host.Outcome State Fault Refusal :=
  .next (mgmtRegWrite h addr words s)
def execHutRstCtlCold (h : MgmtHdr) (v : Word) (s : State) : Host.Outcome State Fault Refusal :=
  .next (if bit v.toNat 1 then mgmtRegWrite h 0x18 [v] s else s)
def execHutRstCtlWarm (h : MgmtHdr) (v : Word) (s : State) : Host.Outcome State Fault Refusal :=
  .next (if bit v.toNat 0 && !bit v.toNat 1 then mgmtRegWrite h 0x18 [v] s else s)
def execDirAgentEvict (h : MgmtHdr) (v : Word) (s : State) : Host.Outcome State Fault Refusal := .next (mgmtRegWrite h 0x04000008 [v] s)
def execFrzReadoutStart (h : MgmtHdr) (high : Word) (s : State) : Host.Outcome State Fault Refusal := .next (mgmtRegWrite h 0x24 [high] s)
def execGetVersion (h : MgmtHdr) (s : State) : Host.Outcome State Fault Refusal := .next (getVersion h s)
def execGetCapabilities (h : MgmtHdr) (s : State) : Host.Outcome State Fault Refusal := .next (getCapabilities h s)
def execNegotiateAlgorithms (h : MgmtHdr) (offersSha3 offersExt : Bool) (s : State) : Host.Outcome State Fault Refusal :=
  .next (negotiateAlgorithms h offersSha3 offersExt s)
def execGetDigests (h : MgmtHdr) (s : State) : Host.Outcome State Fault Refusal := .next (getDigests h s)
def execGetCertificate (h : MgmtHdr) (slot offset length : Nat) (s : State) : Host.Outcome State Fault Refusal :=
  .next (getCertificate h slot offset length s)
def execChallenge (h : MgmtHdr) (slot : Nat) (nonce : List Byte) (s : State) : Host.Outcome State Fault Refusal :=
  .next (challenge h slot nonce s)
def execGetMeasurements (h : MgmtHdr) (index : Nat) (nonce : List Byte) (s : State) : Host.Outcome State Fault Refusal :=
  .next (getMeasurements h index nonce s)
def execSpdmUnsupportedRequest (h : MgmtHdr) (code : Nat) (s : State) : Host.Outcome State Fault Refusal := .next (spdmUnsupported h code s)
def execKeyInstall (h : MgmtHdr) (comp kind kgen : Nat) (resv : Bool) (ct wrapped : List Byte) (s : State) :
    Host.Outcome State Fault Refusal := .next (keyInstall h comp kind kgen resv ct wrapped s)
def execKeyRetire (h : MgmtHdr) (comp kgen : Nat) (s : State) : Host.Outcome State Fault Refusal := .next (keyRetire h comp kgen s)
def execSakInstall (h : MgmtHdr) (lp : Nat) (tx : Bool) (an ssci : Nat) (salt : List Byte) (pn : Nat) (ct wrapped : List Byte) (s : State) :
    Host.Outcome State Fault Refusal := .next (sakInstall h lp tx an ssci salt pn ct wrapped s)
def execCapsuleWrite (h : MgmtHdr) (c : Capsule) (s : State) : Host.Outcome State Fault Refusal := .next (capsuleWrite h c s)
def execImageWrite (h : MgmtHdr) (i : Image) (s : State) : Host.Outcome State Fault Refusal := .next (imageWrite h i s)
def execOwnerClaim (h : MgmtHdr) (key : List Byte) (s : State) : Host.Outcome State Fault Refusal := .next (ownerClaim h key s)
def execOwnerRelease (h : MgmtHdr) (sig : List Byte) (s : State) : Host.Outcome State Fault Refusal := .next (ownerRelease h sig s)

end Sys2Proof.Machine
end

