-- ==== Sys2Proof/Machine/Dispatch.lean ====
section
/-! DEFINITION. Each command's meaning: one direct call for each row of spec/opcode_table.json. -/

namespace Sys2Proof.Machine

/-- The effect of a command on everything but the queue. -/
def exec (i : Instr) (s : State) : Host.Outcome State Fault Refusal :=
  match i with
  | .pwrOkFall => Sys2Proof.Machine.execPwrOkFall s
  | .porstNAssert => Sys2Proof.Machine.execPorstNAssert s
  | .internalResetEnd smbAddr => Sys2Proof.Machine.execInternalResetEnd smbAddr s
  | .brownOut => Sys2Proof.Machine.execBrownOut s
  | .coreRstNAssert => Sys2Proof.Machine.execCoreRstNAssert s
  | .coreRstNRelease => Sys2Proof.Machine.execCoreRstNRelease s
  | .frzNFall => Sys2Proof.Machine.execFrzNFall s
  | .refclkCheck mgt core sd => Sys2Proof.Machine.execRefclkCheck mgt core sd s
  | .bootStageComplete r => Sys2Proof.Machine.execBootStageComplete r s
  | .fullEntry => Sys2Proof.Machine.execFullEntry s
  | .mgmtLinkTry linked => Sys2Proof.Machine.execMgmtLinkTry linked s
  | .hutRstCtlCold h v => Sys2Proof.Machine.execHutRstCtlCold h v s
  | .hutRstCtlWarm h v => Sys2Proof.Machine.execHutRstCtlWarm h v s
  | .resetDelayExpiry => Sys2Proof.Machine.execResetDelayExpiry s
  | .hutWatchdog => Sys2Proof.Machine.execHutWatchdog s
  | .thermSample dies sts => Sys2Proof.Machine.execThermSample dies sts s
  | .ridgeLinkFailure => Sys2Proof.Machine.execRidgeLinkFailure s
  | .crestPllLockLoss crest => Sys2Proof.Machine.execCrestPllLockLoss crest s
  | .hbmControllerFailure => Sys2Proof.Machine.execHbmControllerFailure s
  | .pwrEstTick est => Sys2Proof.Machine.execPwrEstTick est s
  | .ptpEventMessage lp m => Sys2Proof.Machine.execPtpEventMessage lp m s
  | .lldpFrame lp bytes => Sys2Proof.Machine.execLldpFrame lp bytes s
  | .portCfgWrite path addr v => Sys2Proof.Machine.execPortCfgWrite path addr v s
  | .portCtlRetrain path port v => Sys2Proof.Machine.execPortCtlRetrain path port v s
  | .pcsLock lp => Sys2Proof.Machine.execPcsLock lp s
  | .initTimer lp => Sys2Proof.Machine.execInitTimer lp s
  | .noKmtPeerTimeout lp => Sys2Proof.Machine.execNoKmtPeerTimeout lp s
  | .linkctlInit lp bytes => Sys2Proof.Machine.execLinkctlInit lp bytes s
  | .linkctlInitAck lp bytes => Sys2Proof.Machine.execLinkctlInitAck lp bytes s
  | .dataFrameReceive lp sec bytes fcs => Sys2Proof.Machine.execDataFrameReceive lp sec bytes fcs s
  | .dataFrameSend lp => Sys2Proof.Machine.execDataFrameSend lp s
  | .ackReceive lp bytes => Sys2Proof.Machine.execAckReceive lp bytes s
  | .nakReceive lp bytes => Sys2Proof.Machine.execNakReceive lp bytes s
  | .ackDelayExpiry lp => Sys2Proof.Machine.execAckDelayExpiry lp s
  | .idleAckTimer lp => Sys2Proof.Machine.execIdleAckTimer lp s
  | .nakHoldoffExpiry lp => Sys2Proof.Machine.execNakHoldoffExpiry lp s
  | .replayTmoExpiry lp => Sys2Proof.Machine.execReplayTmoExpiry lp s
  | .laneFail lp lane cause => Sys2Proof.Machine.execLaneFail lp lane cause s
  | .degrade lp m => Sys2Proof.Machine.execDegrade lp m s
  | .degradeAck lp m => Sys2Proof.Machine.execDegradeAck lp m s
  | .degradeRepeatTimer lp => Sys2Proof.Machine.execDegradeRepeatTimer lp s
  | .switchCw lp => Sys2Proof.Machine.execSwitchCw lp s
  | .degradeAckTimeout lp => Sys2Proof.Machine.execDegradeAckTimeout lp s
  | .restoreTimer lp lane => Sys2Proof.Machine.execRestoreTimer lp lane s
  | .restore lp m => Sys2Proof.Machine.execRestore lp m s
  | .restoreAck lp m => Sys2Proof.Machine.execRestoreAck lp m s
  | .pcsAlignLoss lp => Sys2Proof.Machine.execPcsAlignLoss lp s
  | .silenceTimeout lp => Sys2Proof.Machine.execSilenceTimeout lp s
  | .penaltyRecompute lp => Sys2Proof.Machine.execPenaltyRecompute lp s
  | .rehomeMsExpiry lp => Sys2Proof.Machine.execRehomeMsExpiry lp s
  | .plainFrameReceive lp sec f fcs => Sys2Proof.Machine.execPlainFrameReceive lp sec f fcs s
  | .pfcFrameReceive lp prio quanta => Sys2Proof.Machine.execPfcFrameReceive lp prio quanta s
  | .arpRequest lp target srcMac srcIp => Sys2Proof.Machine.execArpRequest lp target srcMac srcIp s
  | .neighbourSolicitation lp target srcMac srcIp => Sys2Proof.Machine.execNeighbourSolicitation lp target srcMac srcIp s
  | .matchingCycle agree => Sys2Proof.Machine.execMatchingCycle agree s
  | .combDecision crest => Sys2Proof.Machine.execCombDecision crest s
  | .rateAdjust => Sys2Proof.Machine.execRateAdjust s
  | .rd lp tc p => Sys2Proof.Machine.execRd lp tc p s
  | .wr lp tc p => Sys2Proof.Machine.execWr lp tc p s
  | .fadd lp tc p => Sys2Proof.Machine.execFadd lp tc p s
  | .fand lp tc p => Sys2Proof.Machine.execFand lp tc p s
  | .forr lp tc p => Sys2Proof.Machine.execForr lp tc p s
  | .fxor lp tc p => Sys2Proof.Machine.execFxor lp tc p s
  | .fmaxs lp tc p => Sys2Proof.Machine.execFmaxs lp tc p s
  | .fmins lp tc p => Sys2Proof.Machine.execFmins lp tc p s
  | .swap lp tc p => Sys2Proof.Machine.execSwap lp tc p s
  | .cas lp tc p => Sys2Proof.Machine.execCas lp tc p s
  | .flush lp tc p => Sys2Proof.Machine.execFlush lp tc p s
  | .publish lp tc p => Sys2Proof.Machine.execPublish lp tc p s
  | .put lp tc p => Sys2Proof.Machine.execPut lp tc p s
  | .get lp tc p => Sys2Proof.Machine.execGet lp tc p s
  | .send lp tc p => Sys2Proof.Machine.execSend lp tc p s
  | .messageResponse lp tc p => Sys2Proof.Machine.execMessageResponse lp tc p s
  | .hbmResponse id ue => Sys2Proof.Machine.execHbmResponse id ue s
  | .trayResponse lp tc p => Sys2Proof.Machine.execTrayResponse lp tc p s
  | .trayTmoExpiry id => Sys2Proof.Machine.execTrayTmoExpiry id s
  | .combWindowClose id => Sys2Proof.Machine.execCombWindowClose id s
  | .replyCacheExpiry crest src tag => Sys2Proof.Machine.execReplyCacheExpiry crest src tag s
  | .drainTimeout ext => Sys2Proof.Machine.execDrainTimeout ext s
  | .crdS lp tc p => Sys2Proof.Machine.execCrdS lp tc p s
  | .crdX lp tc p => Sys2Proof.Machine.execCrdX lp tc p s
  | .cupg lp tc p => Sys2Proof.Machine.execCupg lp tc p s
  | .cwb lp tc p => Sys2Proof.Machine.execCwb lp tc p s
  | .cevict lp tc p => Sys2Proof.Machine.execCevict lp tc p s
  | .cjoin lp tc p => Sys2Proof.Machine.execCjoin lp tc p s
  | .cleave lp tc p => Sys2Proof.Machine.execCleave lp tc p s
  | .probeResponse lp tc p => Sys2Proof.Machine.execProbeResponse lp tc p s
  | .lineTransactionDone space line => Sys2Proof.Machine.execLineTransactionDone space line s
  | .dirEntryFill space line ue => Sys2Proof.Machine.execDirEntryFill space line ue s
  | .belayHoldExpiry space line agent => Sys2Proof.Machine.execBelayHoldExpiry space line agent s
  | .probeTmoExpiry id => Sys2Proof.Machine.execProbeTmoExpiry id s
  | .deadUsExpiry apt agent => Sys2Proof.Machine.execDeadUsExpiry apt agent s
  | .dirAgentEvict h v => Sys2Proof.Machine.execDirAgentEvict h v s
  | .reclaimWalkDone apt agent => Sys2Proof.Machine.execReclaimWalkDone apt agent s
  | .recallWalkDone id => Sys2Proof.Machine.execRecallWalkDone id s
  | .roleAssign comp q => Sys2Proof.Machine.execRoleAssign comp q s
  | .roleDrainTimeout k unit => Sys2Proof.Machine.execRoleDrainTimeout k unit s
  | .roleScrubStart k unit => Sys2Proof.Machine.execRoleScrubStart k unit s
  | .roleScrubDone k unit => Sys2Proof.Machine.execRoleScrubDone k unit s
  | .ropeForm comp q => Sys2Proof.Machine.execRopeForm comp q s
  | .ropeDissolve comp q => Sys2Proof.Machine.execRopeDissolve comp q s
  | .collPost comp q => Sys2Proof.Machine.execCollPost comp q s
  | .gatherPost comp q => Sys2Proof.Machine.execGatherPost comp q s
  | .filterPost comp q => Sys2Proof.Machine.execFilterPost comp q s
  | .memberTableReadDone id => Sys2Proof.Machine.execMemberTableReadDone id s
  | .econtrib lp tc p => Sys2Proof.Machine.execEcontrib lp tc p s
  | .ebarrier lp tc p => Sys2Proof.Machine.execEbarrier lp tc p s
  | .epart lp tc p => Sys2Proof.Machine.execEpart lp tc p s
  | .epartResponse lp tc p => Sys2Proof.Machine.execEpartResponse lp tc p s
  | .eresult lp tc p => Sys2Proof.Machine.execEresult lp tc p s
  | .eresultResponse lp tc p => Sys2Proof.Machine.execEresultResponse lp tc p s
  | .ownOffer lp tc p => Sys2Proof.Machine.execOwnOffer lp tc p s
  | .ownAccept lp tc p => Sys2Proof.Machine.execOwnAccept lp tc p s
  | .ownershipWatchExpiry id => Sys2Proof.Machine.execOwnershipWatchExpiry id s
  | .engDeadlineCheck unit => Sys2Proof.Machine.execEngDeadlineCheck unit s
  | .engCtlReset path unit v => Sys2Proof.Machine.execEngCtlReset path unit v s
  | .engRopeCtlReset path unit v => Sys2Proof.Machine.execEngRopeCtlReset path unit v s
  | .engResetDone unit clean => Sys2Proof.Machine.execEngResetDone unit clean s
  | .sramUe tile => Sys2Proof.Machine.execSramUe tile s
  | .tablePublish comp q => Sys2Proof.Machine.execTablePublish comp q s
  | .gindex lp tc p => Sys2Proof.Machine.execGindex lp tc p s
  | .roundFlushDone desc tile => Sys2Proof.Machine.execRoundFlushDone desc tile s
  | .rowReadResponse id => Sys2Proof.Machine.execRowReadResponse id s
  | .growreq lp tc p => Sys2Proof.Machine.execGrowreq lp tc p s
  | .growreqResponse lp tc p => Sys2Proof.Machine.execGrowreqResponse lp tc p s
  | .rowTmoExpiry id => Sys2Proof.Machine.execRowTmoExpiry id s
  | .gbagResponse lp tc p => Sys2Proof.Machine.execGbagResponse lp tc p s
  | .frecord lp tc p => Sys2Proof.Machine.execFrecord lp tc p s
  | .foutputResponse lp tc p => Sys2Proof.Machine.execFoutputResponse lp tc p s
  | .haulPost comp q => Sys2Proof.Machine.execHaulPost comp q s
  | .blockReadResponse id => Sys2Proof.Machine.execBlockReadResponse id s
  | .codebookLoadDone id => Sys2Proof.Machine.execCodebookLoadDone id s
  | .putResponse lp tc p => Sys2Proof.Machine.execPutResponse lp tc p s
  | .putTmoExpiry id => Sys2Proof.Machine.execPutTmoExpiry id s
  | .haulDeadlineCheck unit => Sys2Proof.Machine.execHaulDeadlineCheck unit s
  | .haulCtlReset path unit v => Sys2Proof.Machine.execHaulCtlReset path unit v s
  | .haulRopeCtlReset path unit v => Sys2Proof.Machine.execHaulRopeCtlReset path unit v s
  | .haulResetDone unit clean => Sys2Proof.Machine.execHaulResetDone unit clean s
  | .haulUe engine => Sys2Proof.Machine.execHaulUe engine s
  | .routeLoadLoad comp q => Sys2Proof.Machine.execRouteLoadLoad comp q s
  | .routeLoadStart comp q => Sys2Proof.Machine.execRouteLoadStart comp q s
  | .routeLoadStop comp q => Sys2Proof.Machine.execRouteLoadStop comp q s
  | .routeLoadUnload comp q => Sys2Proof.Machine.execRouteLoadUnload comp q s
  | .layerArm card => Sys2Proof.Machine.execLayerArm card s
  | .fillReadResponse id => Sys2Proof.Machine.execFillReadResponse id s
  | .stepRepost card step => Sys2Proof.Machine.execStepRepost card step s
  | .usageIntegralTick => Sys2Proof.Machine.execUsageIntegralTick s
  | .cmdIntake lp f => Sys2Proof.Machine.execCmdIntake lp f s
  | .ringProducerResume comp ring => Sys2Proof.Machine.execRingProducerResume comp ring s
  | .nop comp q => Sys2Proof.Machine.execNop comp q s
  | .regRead comp q => Sys2Proof.Machine.execRegRead comp q s
  | .regWrite comp q => Sys2Proof.Machine.execRegWrite comp q s
  | .spaceCreate comp q => Sys2Proof.Machine.execSpaceCreate comp q s
  | .spaceDestroy comp q => Sys2Proof.Machine.execSpaceDestroy comp q s
  | .extentMap comp q => Sys2Proof.Machine.execExtentMap comp q s
  | .regionCreate comp q => Sys2Proof.Machine.execRegionCreate comp q s
  | .regionRemove comp q => Sys2Proof.Machine.execRegionRemove comp q s
  | .ringCreate comp q => Sys2Proof.Machine.execRingCreate comp q s
  | .ringDestroy comp q => Sys2Proof.Machine.execRingDestroy comp q s
  | .extentRevoke comp q => Sys2Proof.Machine.execExtentRevoke comp q s
  | .jobCreate comp q => Sys2Proof.Machine.execJobCreate comp q s
  | .jobDestroy comp q => Sys2Proof.Machine.execJobDestroy comp q s
  | .regionPublish comp q => Sys2Proof.Machine.execRegionPublish comp q s
  | .tenantCreate comp q => Sys2Proof.Machine.execTenantCreate comp q s
  | .tenantRemove comp q => Sys2Proof.Machine.execTenantRemove comp q s
  | .tenantScrubDone comp => Sys2Proof.Machine.execTenantScrubDone comp s
  | .tenantReset comp q => Sys2Proof.Machine.execTenantReset comp q s
  | .quiesce comp q => Sys2Proof.Machine.execQuiesce comp q s
  | .quiesceDrainExpiry => Sys2Proof.Machine.execQuiesceDrainExpiry s
  | .resume comp q => Sys2Proof.Machine.execResume comp q s
  | .portRehome comp q => Sys2Proof.Machine.execPortRehome comp q s
  | .secondStart comp q => Sys2Proof.Machine.execSecondStart comp q s
  | .secondPromote comp q => Sys2Proof.Machine.execSecondPromote comp q s
  | .statsRead comp q => Sys2Proof.Machine.execStatsRead comp q s
  | .captureStart comp q => Sys2Proof.Machine.execCaptureStart comp q s
  | .captureStop comp q => Sys2Proof.Machine.execCaptureStop comp q s
  | .captureRelease comp q => Sys2Proof.Machine.execCaptureRelease comp q s
  | .usageRead comp q => Sys2Proof.Machine.execUsageRead comp q s
  | .cmdAttnCauseW1c path v => Sys2Proof.Machine.execCmdAttnCauseW1c path v s
  | .counterReadClear path addr => Sys2Proof.Machine.execCounterReadClear path addr s
  | .registerWrite path addr v => Sys2Proof.Machine.execRegisterWrite path addr v s
  | .hello peer nonce chain => Sys2Proof.Machine.execHello peer nonce chain s
  | .kex peer ct sig => Sys2Proof.Machine.execKex peer ct sig s
  | .mgmtSessionIdle sess => Sys2Proof.Machine.execMgmtSessionIdle sess s
  | .mgmtRegRead h addr count => Sys2Proof.Machine.execMgmtRegRead h addr count s
  | .mgmtRegWrite h addr words => Sys2Proof.Machine.execMgmtRegWrite h addr words s
  | .getVersion h => Sys2Proof.Machine.execGetVersion h s
  | .getCapabilities h => Sys2Proof.Machine.execGetCapabilities h s
  | .negotiateAlgorithms h offersSha3 offersExt => Sys2Proof.Machine.execNegotiateAlgorithms h offersSha3 offersExt s
  | .getDigests h => Sys2Proof.Machine.execGetDigests h s
  | .getCertificate h slot offset length => Sys2Proof.Machine.execGetCertificate h slot offset length s
  | .challenge h slot nonce => Sys2Proof.Machine.execChallenge h slot nonce s
  | .getMeasurements h index nonce => Sys2Proof.Machine.execGetMeasurements h index nonce s
  | .keyInstall h comp kind kgen resv ct wrapped => Sys2Proof.Machine.execKeyInstall h comp kind kgen resv ct wrapped s
  | .keyRetire h comp kgen => Sys2Proof.Machine.execKeyRetire h comp kgen s
  | .sakInstall h lp tx an ssci salt pn ct wrapped => Sys2Proof.Machine.execSakInstall h lp tx an ssci salt pn ct wrapped s
  | .capsuleWrite h c => Sys2Proof.Machine.execCapsuleWrite h c s
  | .imageWrite h img => Sys2Proof.Machine.execImageWrite h img s
  | .ownerClaim h key => Sys2Proof.Machine.execOwnerClaim h key s
  | .ownerRelease h sig => Sys2Proof.Machine.execOwnerRelease h sig s
  | .smbusBlockWrite addr7 command data pecOk => Sys2Proof.Machine.execSmbusBlockWrite addr7 command data pecOk s
  | .smbusBlockRead addr7 command pecOk => Sys2Proof.Machine.execSmbusBlockRead addr7 command pecOk s
  | .idcode => Sys2Proof.Machine.execIdcode s
  | .bypass => Sys2Proof.Machine.execBypass s
  | .samplePreload bits => Sys2Proof.Machine.execSamplePreload bits s
  | .extest bits => Sys2Proof.Machine.execExtest bits s
  | .frzAccess addr => Sys2Proof.Machine.execFrzAccess addr s
  | .frzReadoutStart h high => Sys2Proof.Machine.execFrzReadoutStart h high s
  | .readoutDone raw => Sys2Proof.Machine.execReadoutDone raw s
  | .mlog lp tc p => Sys2Proof.Machine.execMlog lp tc p s
  | .mlogResponse lp tc p => Sys2Proof.Machine.execMlogResponse lp tc p s
  | .mlogTmoExpiry id => Sys2Proof.Machine.execMlogTmoExpiry id s
  | .hbeatTimer => Sys2Proof.Machine.execHbeatTimer s
  | .hbeat lp tc p names half => Sys2Proof.Machine.execHbeat lp tc p names half s
  | .fenceUsExpiry => Sys2Proof.Machine.execFenceUsExpiry s
  | .lostUsExpiry => Sys2Proof.Machine.execLostUsExpiry s
  | .takeoverDone => Sys2Proof.Machine.execTakeoverDone s
  | .secondWindowEnd => Sys2Proof.Machine.execSecondWindowEnd s
  | .promoteTmoExpiry => Sys2Proof.Machine.execPromoteTmoExpiry s
  | .pwrOkRise => Sys2Proof.Machine.execPwrOkRise s
  | .tapReset => Sys2Proof.Machine.execTapReset s
  | .holdover => Sys2Proof.Machine.execHoldover s
  | .spdmUnsupportedRequest h code => Sys2Proof.Machine.execSpdmUnsupportedRequest h code s
  | .controlCoresRestart => Sys2Proof.Machine.execControlCoresRestart s

end Sys2Proof.Machine
end

