-- ==== Sys2Proof/Safety.lean ====
section
/-! DEFINITION. The terms that the statements use: safe outcomes, which parts of the state a command leaves, the canonical
forms, the states of the block in which a command acts, and how a command of a queue starts. -/

namespace Sys2Proof.Machine

/-! ### Safe outcomes and canonical forms -/

/-- HBM is held in its canonical form. -/
def State.MemOk (s : State) : Prop := Memory.wf s.mem

/-- An outcome is safe: a next state, not a fault or a refusal. -/
def Answers (o : Host.Outcome State Fault Refusal) : Prop := ∃ t, o = .next t

/-! ### Frames -/

/-- The parts of State, the queue apart. -/
inductive Field where
  | dev | clock | regs | ctrs | latched | heldLow | lports | sw | rx | toHut | mem | pages | reads | poison | xlt | dir | cmd
  | comps | sec | eng | haul | cards | flt | out | freeCtr
  deriving DecidableEq, Repr

/-- The part is the same in both states. -/
def Field.same (s t : State) : Field → Prop
  | .dev => t.dev = s.dev
  | .clock => t.clock = s.clock
  | .regs => t.regs = s.regs
  | .ctrs => t.ctrs = s.ctrs
  | .latched => t.latched = s.latched
  | .heldLow => t.heldLow = s.heldLow
  | .lports => t.lports = s.lports
  | .sw => t.sw = s.sw
  | .rx => t.rx = s.rx
  | .toHut => t.toHut = s.toHut
  | .mem => t.mem = s.mem
  | .pages => t.pages = s.pages
  | .reads => t.reads = s.reads
  | .poison => t.poison = s.poison
  | .xlt => t.xlt = s.xlt
  | .dir => t.dir = s.dir
  | .cmd => t.cmd = s.cmd
  | .comps => t.comps = s.comps
  | .sec => t.sec = s.sec
  | .eng => t.eng = s.eng
  | .haul => t.haul = s.haul
  | .cards => t.cards = s.cards
  | .flt => t.flt = s.flt
  | .out => t.out = s.out
  | .freeCtr => t.freeCtr = s.freeCtr

/-- Nothing but the parts named changes: every other part, and the queue, is as before. -/
def OnlyChanges (fs : List Field) (s t : State) : Prop := t.pending = s.pending ∧ ∀ f, f ∉ fs → f.same s t

/-- No byte of HBM changes, and none becomes or ceases to be poisoned. -/
def HbmSame (s t : State) : Prop := (∀ a, memByte t.mem a = memByte s.mem a) ∧ t.poison = s.poison

/-! ### Resets -/

/-- What a device cold reset leaves: everything as right after reset but for the device part given, the block's own clock, what
has been sent, and the queue. -/
def coldWith (d : Dev) (s : State) : State :=
  { State.reset with dev := d, clock := { clk := s.clock.clk }, out := s.out, freeCtr := s.freeCtr, pending := s.pending }

/-- The device part after a device cold reset of a cause: pins, flash, the trip latch and the JTAG instruction stay (Table 16-4). -/
def coldDev (cause : Nat) (s : State) : Dev :=
  { part := s.dev.part, pwrOk := s.dev.pwrOk, porstLow := s.dev.porstLow, coreRstLow := s.dev.coreRstLow, brown := s.dev.brown
    pwrAt := s.dev.pwrAt, flash := s.dev.flash, thermTrip := s.dev.thermTrip, tapIr := s.dev.tapIr
    resetCause := 2 ^ cause + (if s.dev.devState = .bivouac then 128 else 0) }

/-- What a device warm reset of a cause leaves at its step 4 (Table 17-4): HBM, flash, identity, capsule, usage totals, the fault
log and the registers that `keptWarm` names stay; objects, links, queues, keys and sessions go. -/
def WarmFrom (cause : Nat) (s t : State) : Prop :=
  t.dev.stage = 5 ∧ t.dev.warm = true ∧ t.dev.devState = .baseCamp ∧ t.dev.flash = s.dev.flash ∧ t.dev.resetReq = none ∧
  t.dev.resetCause = 2 ^ cause + (if s.dev.devState = .bivouac then 128 else 0) ∧
  (∀ a, reg t a = if keptWarm a then reg s a else reg State.reset a) ∧ HbmSame s t ∧ t.clock.tb = 0 ∧
  t.lports = [] ∧ t.sw = {} ∧ t.rx = [] ∧ t.pages = [] ∧ t.xlt = {} ∧ t.dir = {} ∧ t.cmd = {} ∧ t.eng = {} ∧ t.haul = {} ∧ t.cards = [] ∧
  t.sec.keys = [] ∧ t.sec.sessions = [] ∧ t.sec.image = s.sec.image ∧ t.sec.capsule = s.sec.capsule ∧ t.sec.nodeId = s.sec.nodeId ∧
  t.flt.log = s.flt.log ∧ t.flt.logWr = s.flt.logWr ∧ t.flt.paired = false ∧ t.out = s.out ∧ t.pending = s.pending

/-- A boot stage may end: powered, out of internal reset, not frozen, not held in step 4 of a warm reset. -/
def boots (s : State) : Prop := dead s = false ∧ s.dev.devState ≠ .bivouac ∧ s.dev.warmHeld = false

/-- The newest fault record has this class and cause, and the time of its event. -/
def LastFault (cls cause : Nat) (s t : State) : Prop :=
  t.flt.logWr = s.flt.logWr + 1 ∧ ∃ r, mget t.flt.log (s.flt.logWr % 4096) = some r ∧ r.cls = cls ∧ r.cause = cause ∧ r.tEvt = s.clock.tb

/-! ### Links -/

/-- The frame that carries this Talik's INIT on a port (R47, R49, Table 2-7). -/
def initFrame (s : State) (lp : Nat) : List Byte :=
  frameOf s lp (linkHeader 4 0 64 0 false 0 0 ++ bodyCrc (initBody s lp))

/-- The frame of an ACK (SUBTYPE 2) or NAK (SUBTYPE 3, with its reason) on a port: ACKSEQ is NEXT, the body its credit limits
(R47, R51, R56, R57). -/
def ackFrame (s : State) (lp sub reason : Nat) : List Byte :=
  frameOf s lp (linkHeader sub 0 32 reason true 0 (lport s lp).next ++ bodyCrc (((lport s lp).myLimit.map (le 4)).flatten))

/-- Every other logical port is as it was. -/
def OtherPorts (lp : Nat) (s t : State) : Prop := ∀ q, q ≠ lp → lport t q = lport s q

/-- The counter at an address has gone up by one, short of its top (R12). -/
def CountedOne (a : Nat) (s t : State) : Prop := ctr t a = min (2 ^ 64 - 1) (ctr s a + 1)

/-- No tray request is out on a port. -/
def noTrayOn (s : State) (lp : Nat) : Prop := ∀ r ∈ s.xlt.trays, r.lp ≠ lp

/-- A logical port has gone DOWN, or into DAMPED when its penalty has passed SUPPRESS (R71, R72), with a record of the class and
cause given, and a flap counted. -/
def WentDown (lp cls cause : Nat) (s t : State) : Prop :=
  ((lport t lp).st = 1 ∨ (bit (linkCfg s lp) 31 = true ∧ (lport t lp).st = 7)) ∧ (lport t lp).replay = [] ∧ (lport t lp).move = none ∧
  LastFault cls cause (atLeast t.clock.clk s) t ∧ CountedOne (portCtr lp 0x130) s t ∧ HbmSame s t

/-! ### Requests and what answers them -/

/-- Identifiers of the requests in flight are below the next one. -/
def State.IdsOk (s : State) : Prop := ∀ r ∈ s.xlt.reqs, r.id < s.xlt.nextId

/-- A request of an endpoint passes every row of Table 4-3 and meets no open intent of a takeover. -/
def Accepts (s : State) (lp tc : Nat) (p : Kmt) : Prop :=
  s.IdsOk ∧ takesPackets s lp = true ∧ meetsIntent s p = false ∧ p.rsp = false ∧ lsCheck (takeRx lp tc p s) lp tc p = .ok

/-- The request in flight that an accepted packet becomes. -/
def newReq (s : State) (lp tc : Nat) (p : Kmt) : Req :=
  { id := s.xlt.nextId, lp, tc, pkt := p, crest := crestOf lp, ext := (extOf s p).map (·.1), at_ := s.clock.clk
    waits := if p.opcode = 0x20 ∨ p.opcode = 0x21 then flushSet s lp p else [] }

/-- The operation at HBM of an RD, WR or atomic (R114, R115). -/
def memOpOf (p : Kmt) : MemOp :=
  if p.opcode = 0x01 then .read p.len
  else if p.opcode = 0x02 then .write (p.payload.take p.len)
  else .atomic p.opcode (atomWidth p.opcode p.len) p.payload

/-- The RD, WR and atomic rows of Table 4-2 with their opcodes. -/
def memRows : List (Nat × (Nat → Nat → Kmt → Instr)) :=
  [(0x01, .rd), (0x02, .wr), (0x10, .fadd), (0x11, .fand), (0x12, .forr), (0x13, .fxor), (0x14, .fmaxs), (0x15, .fmins),
   (0x16, .swap), (0x17, .cas)]

/-- The message rows of Table 4-2 with their opcodes. -/
def msgRows : List (Nat × (Nat → Nat → Kmt → Instr)) := [(0x40, .put), (0x41, .get), (0x42, .send)]

/-- The last frame given to the switch core carries this packet to a logical port. -/
def Queued (lp tc : Nat) (p : Kmt) (t : State) : Prop :=
  ∃ f, t.sw.voq.getLast? = some f ∧ f.cargo = .kmt p ∧ f.tc = tc ∧ f.legs = [{ out := outPort (lp / 8), lp }]

/-- The last frame given to the switch core is the response to a request (R110): its status and payload. LOAD is R139's. -/
def Responded (q : Req) (status : Nat) (data : List Byte) (t : State) : Prop :=
  ∃ load cmb, Queued q.lp q.tc (response q.pkt (selfEp t) status load data cmb) t

/-- A request is no longer in flight, and nothing waits for it; the others are. -/
def ReqGone (id : Nat) (s t : State) : Prop :=
  t.xlt.reqs = (s.xlt.reqs.filter (·.id != id)).map fun q => { q with waits := q.waits.filter (· != id) }

/-- No window of the Crest is open to combine with, and combining is off for the class and opcode. -/
def alone (s : State) (lp tc op : Nat) : Prop :=
  (∀ w ∈ s.xlt.windows, w.crest ≠ crestOf lp) ∧ (joinable tc op && combOn s (crestOf lp) tc) = false

/-! ### The Coherent Aperture -/

/-- The request for one line that an accepted coherent request makes at its slice (R157). -/
def lineReqOf (s : State) (lp tc : Nat) (p : Kmt) (x : Nat) : LineReq :=
  { op := p.opcode, agent := x, whom := .req s.xlt.nextId, pkt := p, lp, tc, crest := crestOf lp }

/-- An accepted coherent line request of a live agent, in an unmirrored composition, on a line that is not busy, whose entry is in
the directory cache, in an aperture without dead agents. -/
def LineIdle (s : State) (lp tc : Nat) (p : Kmt) (apt x : Nat) : Prop :=
  Accepts s lp tc p ∧ isLineOp p.opcode = true ∧ aptOf s p.space = some apt ∧ liveAgent s apt p.src = some x ∧
  findTxn s p.space (lineOf p.addr) = none ∧ lkey p.space (lineOf p.addr) ∈ s.dir.cache ∧
  (∀ n, (agentAt s apt n).st ≠ 2) ∧ mirrorBit s (spaceComp s p.space) = false ∧ mirrorBit s p.comp = false

/-- The line rows of Table 5-1 with their opcodes. -/
def lineRows : List (Nat × (Nat → Nat → Kmt → Instr)) := [(0x30, .crdS), (0x31, .crdX), (0x32, .cupg), (0x33, .cwb), (0x34, .cevict)]

/-- The transaction of the line, as the request leaves it. -/
def TxnIs (space line : Nat) (t : Txn) (s : State) : Prop := findTxn s space line = some t ∧ t.space = space ∧ t.line = line

/-! ### Commands of the queues -/

/-- The rows of the command table that start the command at the head of a queue, with the opcode and the action byte of each
(Table 12-4). -/
def cmdRows : List ((Nat → Nat → Instr) × Nat × Option Nat) :=
  [(.nop, 0x01, none), (.regRead, 0x02, none), (.regWrite, 0x03, none), (.spaceCreate, 0x10, some 1), (.spaceDestroy, 0x10, some 2),
   (.extentMap, 0x10, some 3), (.regionCreate, 0x10, some 4), (.regionRemove, 0x10, some 5), (.ringCreate, 0x10, some 6),
   (.ringDestroy, 0x10, some 7), (.extentRevoke, 0x11, none), (.jobCreate, 0x12, none), (.jobDestroy, 0x13, none),
   (.roleAssign, 0x21, none), (.regionPublish, 0x43, none), (.tenantCreate, 0x50, none), (.tenantRemove, 0x51, none),
   (.tenantReset, 0x52, none), (.quiesce, 0x60, none), (.resume, 0x61, none), (.portRehome, 0x62, none), (.secondStart, 0x63, none),
   (.secondPromote, 0x64, none), (.statsRead, 0x70, none), (.captureStart, 0x71, some 1), (.captureStop, 0x71, some 2),
   (.captureRelease, 0x71, some 3), (.usageRead, 0x72, none)]

/-- The command of this opcode (and action, where the opcode has one) that a queue of a composition starts next. -/
def AtHead (s : State) (k q op : Nat) (act : Option Nat) (c : CmdRec) : Prop :=
  cmdPathUp s = true ∧ startable s k q = some c ∧ c.comp = k ∧ c.queue = q ∧ c.opcode = op ∧ hasRow c = true ∧
  ∀ a, act = some a → pb c 0 = a

/-- It also passes every check at start (Table 12-5), in a composition that is not mirrored. -/
def Starts (s : State) (k q op : Nat) (act : Option Nat) (c : CmdRec) : Prop :=
  AtHead s k q op act c ∧ startCheck (takeStart c s) c = none ∧ mirrorBit s c.comp = false

/-- What goes on once a command has been served: reserved commands at the heads of queues are answered, and all that waited. -/
def goesOn (s : State) : State := settleAll (settleQueues (intake s) s)

/-- The command ends with a status and reply parameters, from the state its own effect leaves. -/
def Done (c : CmdRec) (status : Nat) (ps : List Byte) (u : State) (o : Host.Outcome State Fault Refusal) : Prop :=
  o = .next (goesOn (reply c status 0 ps (if status = 0x13 then count 0x08000418 u else u)))

/-- The command is answered PENDING and runs on. -/
def Runs (c : CmdRec) (what : LongFor) (ps : List Byte) (u : State) (o : Host.Outcome State Fault Refusal) : Prop :=
  o = .next (goesOn (applyRes c (.pending what ps) u))

/-- A byte range of HBM has been zeroed, and nothing else of it has changed. -/
def Zeroed (a n : Nat) (s t : State) : Prop := ∀ b, memByte t.mem b = if a ≤ b ∧ b < a + n then 0 else memByte s.mem b

/-- A run of pages belongs to a composition. -/
def PagesOf (k a n : Nat) (t : State) : Prop := ∀ j, j < n → (mget t.pages (a + j)).map (·.comp) = some k

/-! ### Engine units -/

/-- After a command: reserved commands at the heads of queues are answered. -/
def stepQ (s : State) : State := settleQueues (intake s) s

/-- A ring of a composition has taken one more entry, of this type and status. -/
def Posted (s : State) (k n type status : Nat) (t : State) : Prop :=
  ∃ r r', findRing s k n = some r ∧ findRing t k n = some r' ∧ r'.pi = r.pi + 1 ∧
    (mget r'.entries r.pi).map (fun e => (e.type, e.status)) = some (type, status)

/-- A ring of a composition, other than that of its events, can take an entry. -/
def RingFree (s : State) (k n : Nat) : Prop := n ≠ 0 ∧ ∃ r, findRing s k n = some r ∧ ringSpace r = true ∧ r.waiting = []

/-- An active descriptor of an unmirrored composition whose completion goes into its ring as soon as it ends. -/
def Endable (s : State) (d : Desc) : Prop :=
  findDesc s d.id = some d ∧ d.id ≠ 0 ∧ d.posting = false ∧ d.standby = false ∧ d.notify = false ∧ mirrorBit s d.comp = false ∧
  seconding s = false ∧ RingFree s d.comp d.ring

/-- The descriptor has ended with a status: it is active no longer, and its completion is in its ring (R189, R200). -/
def EndedWith (s : State) (d : Desc) (status : Nat) (t : State) : Prop := Posted s d.comp d.ring 2 status t ∧ findDesc t d.id = none

/-- A packet for this Talik's engines passes Table 6-8 up to the fold record, and meets a live share of an active descriptor of an
unmirrored composition. -/
def AtWork (s : State) (lp tc : Nat) (p : Kmt) (d : Desc) (i : Nat) (sh : ShareSt) : Prop :=
  engTakes s lp = true ∧ p.rsp = false ∧ (p.dst = selfEp s ∨ p.dst = 0x3FFFF) ∧
  ((senderRow (takeRx lp tc p s) lp tc p).or ((unitRow (takeRx lp tc p s) p).or (pktRow (takeRx lp tc p s) p))).status = 0 ∧
  pktDesc s p = some d ∧ findDesc s d.id = some d ∧ shareAt d p.addr = some (i, sh) ∧ sh.dead = false ∧ d.posting = false ∧
  d.moving = false ∧ mirrorBit s d.comp = false ∧ s.dev.devState ≠ .seconding

/-- An answer for this Talik's engines finds the packet that it answers, which waits for that endpoint alone; its composition is not
mirrored. -/
def AtSender (s : State) (lp : Nat) (p : Kmt) (e : ESent) : Prop :=
  engTakes s lp = true ∧ p.rsp = true ∧ p.dst = selfEp s ∧ findSent s p = some e ∧ (∀ x, x ∈ e.need → x = p.src) ∧
  mirrorBit s p.comp = false ∧ s.dev.devState ≠ .seconding


/-! ### Management sessions -/

/-- A message that the session with its ID accepts (R383). -/
def InSession (s : State) (h : MgmtHdr) (q : Session) : Prop :=
  sessAt s h.sess = some q ∧ mgmtUp s = true ∧ h.tagOk = true ∧ h.seq = q.rx + 1 ∧ h.seq ≤ 2 ^ 32

/-- The session has taken the message: SEQ numbers and the idle time. -/
def served (s : State) (h : MgmtHdr) (q : Session) : State :=
  { s with sec.sessions := modIf (·.id == h.sess) (fun _ => { q with rx := h.seq, tx := q.tx + 1, at_ := s.clock.clk }) s.sec.sessions }

/-- The message is answered in its session, from the state that its own effect leaves. -/
def said (h : MgmtHdr) (q : Session) (mop status : Nat) (payload : List Byte) (u : State) : State :=
  emit (.mgmt h.sess (q.tx + 1) mop status payload) u


end Sys2Proof.Machine
end

