-- ==== Sys2Proof/Certificates/Slice0/Obligations.lean ====
section
/-! DEFINITION. What the model is claimed to do: each command's effect with its frame, when it completes, and what holds of the whole
block. -/

open Sys2Proof Sys2Proof.Machine

/-! ### The block as a whole -/

/-- A step takes the command at the front of the queue and runs it on the state with the queue's rest; with an empty queue 1 ns passes
(the model's choice, log entry 1). -/
def Obligations.FrontCommandRuns : Prop :=
  (∀ (s : State) (c : Instr) (rest : List Instr), s.pending = c :: rest → step s = exec c { s with pending := rest }) ∧
  (∀ s : State, s.pending = [] → step s = .next (elapse 1 s))

/-- No command stops the block: each is answered by a next state, and none touches the commands that wait behind it. -/
def Obligations.EveryCommandAnswers : Prop := ∀ (c : Instr) (s : State), ∃ t, exec c s = .next t ∧ t.pending = s.pending

/-- The forms that every step keeps hold after reset: HBM and the counters are listed canonically, request identifiers are below the
next one; no command waits, and the block is without power (R444). -/
def Obligations.ResetForms : Prop :=
  State.reset.MemOk ∧ State.reset.IdsOk ∧ State.reset.pending = [] ∧ State.reset.dev.pwrOk = false ∧ dead State.reset = true

/-- Every step keeps HBM in its canonical form, and the identifiers of requests in flight below the next one. -/
def Obligations.StepKeepsForms : Prop := ∀ s t : State, s.MemOk → s.IdsOk → step s = .next t → t.MemOk ∧ t.IdsOk

/-- R12: a counter saturates at its all-ones value and does not wrap: counting adds to it up to that value, and to no other. -/
def Obligations.CountersSaturate : Prop := ∀ (s : State) (a n : Nat),
  ctr (countN a n s) a = min (2 ^ 64 - 1) (ctr s a + n) ∧ (∀ b, b ≠ a → ctr (countN a n s) b = ctr s b) ∧ OnlyChanges [.ctrs] s (countN a n s)

/-- R11: a device warm reset does not unlock an RWL field, only a device cold reset does. JTAG_RO and LOCK of CLK_THERM_CFG, once
written, keep their values over every command but the four that start a cold reset, which make them writable again. -/
def Obligations.LocksKept : Prop :=
  (∀ (c : Instr) (s t : State), exec c s = .next t →
    c ∉ [.pwrOkFall, .brownOut, .porstNAssert] → (c = .resetDelayExpiry → ∀ r, s.dev.resetReq = some r → r.cold = false) →
    (s.dev.jtagRoSet = true → t.dev.jtagRoSet = true ∧ t.dev.jtagRo = s.dev.jtagRo) ∧
    (s.dev.thermLockSet = true → t.dev.thermLockSet = true ∧ t.dev.thermLock = s.dev.thermLock)) ∧
  (∀ s : State, s.dev.pwrOk = true → s.dev.brown = false →
    (∀ c ∈ [Instr.pwrOkFall, .brownOut, .porstNAssert], ∃ t, exec c s = .next t ∧ t.dev.jtagRoSet = false ∧ t.dev.thermLockSet = false) ∧
    ∀ r, s.dev.resetReq = some r → r.cold = true →
      ∃ t, exec .resetDelayExpiry s = .next t ∧ t.dev.jtagRoSet = false ∧ t.dev.thermLockSet = false)

/-- R368: TENANT_CREATE fixes the security of a composition; no command changes it while the composition exists. -/
def Obligations.SecurityFixed : Prop :=
  (∀ (s : State) (k q : Nat) (c : CmdRec), Starts s k q 0x50 none c → pb c 0 ≠ 0 → pb c 0 ≠ k → (comp s (pb c 0)).st = 0 → pf c 4 2 ≠ 0 →
    (∀ i, i < 4 → pf c (4 + 2 * i) 2 ≤ 4096) → pb c 1 < 2 → quotaBad s c = false → ∃ u, Done c 0 [] u (exec (.tenantCreate k q) s) ∧
      (comp u (pb c 0)).st = 1 ∧ conf u (pb c 0) = (pb c 1 == 1)) ∧
  (∀ (c : Instr) (s t : State) (k : Nat), exec c s = .next t → k ≠ 0 → (comp s k).st ≠ 0 → (comp t k).st ≠ 0 → conf t k = conf s k)

/-- R43: a write that changes BREAKOUT, PMD, AN_EN or ETYPE of a port whose MODE is not OFF changes no field and sets CFG_REJ; with MODE
OFF, one that changes PMD and AN_EN is taken. -/
def Obligations.PortFieldsFixed : Prop := ∀ (s : State) (p : Nat) (v : Word), cmdPathUp s = true → p < 96 →
  let old := reg s (portReg p 0)
  let new := v.toNat &&& 0xE37
  let w := setReg (portReg p 8) 1 s
  (bits old 2 0 ≠ 0 → wordOk s (portReg p 0) new = true → bits old 5 4 ≠ bits new 5 4 ∨ bits old 11 10 ≠ bits new 11 10 ∨ bit old 9 ≠ bit new 9 →
    exec (.portCfgWrite .cmd (portReg p 0) v) s = .next (afterWrite w) ∧ reg w (portReg p 8) = 1 ∧ ∀ a, a ≠ portReg p 8 → reg w a = reg s a) ∧
  (bits old 2 0 ≠ 0 → wordOk s (portReg p 0x10) v.toNat = true → bits v.toNat 31 16 ≠ bits (reg s (portReg p 0x10)) 31 16 →
    exec (.portCfgWrite .cmd (portReg p 0x10) v) s = .next (afterWrite w)) ∧
  (bits old 2 0 = 0 → bits new 2 0 = 0 → bits old 5 4 = bits new 5 4 → wordOk s (portReg p 0) new = true →
    exec (.portCfgWrite .cmd (portReg p 0) v) s = .next (afterWrite (setReg (portReg p 0) new s)))

/-- R182, R183, R27: ROPE_FORM gives the new Rope of idle, healthy units the lowest free Rope ID of its kind; it starts in IDLE, with its
members in the order of the list, and the reply carries its ID and generation. A Rope is dissolved only while it is IDLE and no member of
a Rope; its members are then in no Rope, and their generations have gone up. -/
def Obligations.RopesFormed : Prop := ∀ (s : State) (k q : Nat) (c : CmdRec), pb c 1 < 2 →
  let base := 128 * pb c 1
  let lim := if pb c 1 = 1 then 64 else 128
  let first := if pb c 1 = 1 then 160 else 64
  (∀ r ks, Starts s k q 0x20 (some 1) c → ks = (List.range (pb c 2)).map (fun i => base + pb c (8 + i)) → ks.Nodup →
    (∀ m ∈ ks, m < base + lim ∧ unitThere s m = true ∧ (eunit s m).role = 0 ∧ (eunit s m).parent = none ∧
      anyFailed s m = false ∧ (eunit s m).st = 0 ∧ (eunit s m).rstBusy = false) →
    first ≤ r → r < first + lim / 2 → (eunit s r).formed = false → (∀ m, first ≤ m → m < r → (eunit s m).formed = true) → ∃ u,
    exec (.ropeForm k q) s = .next (stepQ (reply c 0 0 (le 1 (r - base) ++ [0] ++ le 2 (genUp (eunit s r).gen) ++ zeros 4) u)) ∧
    OnlyChanges [.eng] (takeStart c s) u ∧ eunit u r = { gen := genUp (eunit s r).gen, formed := true, members := ks } ∧
    ∀ m ∈ ks, eunit u m = { eunit s m with parent := some r, gen := genUp (eunit s m).gen }) ∧
  (∀ r, Starts s k q 0x20 (some 2) c → r = base + pb c 3 → first ≤ r → pb c 3 < lim → (eunit s r).formed = true →
    ((eunit s r).role = 0 → (eunit s r).parent = none → (eunit s r).st = 0 → (eunit s r).rstBusy = false → (eunit s r).members.Nodup →
      r ∉ (eunit s r).members → ∃ u,
      exec (.ropeDissolve k q) s = .next (stepQ (reply c 0 0 (le 1 (r - base) ++ [0] ++ le 2 (eunit s r).gen ++ zeros 4) u)) ∧
      OnlyChanges [.eng] (takeStart c s) u ∧ (eunit u r).formed = false ∧ (eunit u r).gen = (eunit s r).gen ∧
      ∀ m ∈ (eunit s r).members, eunit u m = { eunit s m with parent := none, gen := genUp (eunit s m).gen }) ∧
    ((eunit s r).role ≠ 0 ∨ (eunit s r).parent ≠ none →
      exec (.ropeDissolve k q) s = .next (stepQ (reply c 0x11 0 [] (takeStart c s)))))

/-- R357: a WR of a ring's CI takes effect only from CI to PI; otherwise it is answered BAD_PARAM and CI stays. When it is answered OK,
every slot that it passed reads as idle. -/
def Obligations.RingsConsumed : Prop := ∀ (s : State) (lp tc : Nat) (p : Kmt) (r : Ring), p.opcode = 0x02 → Accepts s lp tc p →
  ringAt s p.space p.addr = some r → findRing s r.comp r.num = some r → alone s lp tc 0x02 →
  let v := leVal (p.payload.take 8)
  (r.ci ≤ v → v ≤ r.pi → r.pi ≤ r.ci + 2 ^ r.nent → ∃ u w, exec (.wr lp tc p) s = .next (settleXlt u) ∧ Responded (newReq s lp tc p) 0 [] u ∧
    findRing u r.comp r.num = some w ∧ w.ci = v ∧ w.pi = r.pi ∧ HbmSame s u ∧
    ∀ k i, r.ci ≤ k → k < v → i < 8 → 4 ≤ r.esize → ringByte w (4096 + (k % 2 ^ r.nent) * 2 ^ r.esize + i) = (le 8 idleLsw).getD i 0) ∧
  (v < r.ci ∨ r.pi < v → ∃ u, exec (.wr lp tc p) s = .next (settleXlt u) ∧ Responded (newReq s lp tc p) 0x11 [] u ∧
    u.cmd.rings = s.cmd.rings ∧ HbmSame s u)

/-! ### Power, resets and boot (chapter 16) -/

/-- R444, R457 to R459, R491, Table 17-4: PWR_OK falling, a brown-out, PORST_N and a cold reset that is due return everything to its value at
reset but for flash, pins, the trip latch and the JTAG instruction (that a brown-out ends with PWR_OK is R491's). CORE_RST_N starts a
warm reset that waits in step 4 and goes on at the pin's release; a warm reset that is due runs into step 5 at once. -/
def Obligations.ResetsWarmAndCold : Prop :=
  (∀ s : State,
    exec .pwrOkFall s = .next (coldWith { coldDev 0 s with pwrOk := false, thermTrip := false } s) ∧
    (s.dev.pwrOk = true → exec .brownOut s = .next (coldWith { coldDev 0 s with brown := true, thermTrip := false } s)) ∧
    (s.dev.pwrOk = true → s.dev.brown = false → exec .porstNAssert s = .next (coldWith { coldDev 1 s with porstLow := true } s)) ∧
    (∀ r, s.dev.resetReq = some r → r.cold = true → ∃ t, exec .resetDelayExpiry s = .next t ∧
      t = coldWith (coldDev r.cause s) (atLeast r.due s) ∧ t.clock.clk = max s.clock.clk r.due)) ∧
  (∀ s : State,
    (takesWarm s = true → ∃ t, exec .coreRstNAssert s = .next t ∧ WarmFrom 2 s t ∧ t.dev.warmHeld = true ∧ t.dev.coreRstLow = true) ∧
    (∀ r, s.dev.resetReq = some r → r.cold = false → takesWarm s = true → s.dev.coreRstLow = false → s.sec.capsule = none →
      ∃ t, exec .resetDelayExpiry s = .next t ∧ WarmFrom r.cause s t ∧ t.dev.warmHeld = false ∧ t.clock.clk = max s.clock.clk r.due) ∧
    (s.dev.warm = true → s.dev.warmHeld = true → s.sec.capsule = none →
      exec .coreRstNRelease s = .next { s with dev.coreRstLow := false, dev.warmHeld := false }) ∧
    (s.dev.warmHeld = false → exec .coreRstNRelease s = .next { s with dev.coreRstLow := false }))

/-- R445, R446, R417, R453, R455, R459, R460, Table 16-1: PWR_OK rising resets the TAP; internal reset ends 1 ms after it at the earliest,
and the boot ROM samples the SMBus address; REFCLK_MGT lets stage ROM end. In a running device a check that finds every reference only notes
them, and a lost REFCLK_CORE stops the Talik. In recovery the management port is tried in its two modes in turn, 100 ms each, until a link
forms. -/
def Obligations.StartUp : Prop :=
  (∀ s : State,
    (s.dev.pwrOk = false → ∃ t, exec .pwrOkRise s = .next t ∧ OnlyChanges [.dev] s t ∧ t.dev.pwrOk = true ∧ t.dev.brown = false ∧
      t.dev.pwrAt = s.clock.clk ∧ t.dev.tapIr = 0 ∧ t.dev.resetCause = 1) ∧
    (∀ a, s.dev.pwrOk = true → s.dev.brown = false → s.dev.inReset = true → ∃ t, exec (.internalResetEnd a) s = .next t ∧
      OnlyChanges [.dev, .clock] s t ∧ t.dev.inReset = false ∧ t.dev.porstLow = false ∧ t.dev.stage = 0 ∧ t.dev.smbAddr = a % 4 ∧
      t.clock.clk = max s.clock.clk (s.dev.pwrAt + 1000000) ∧ t.dev.bootStart = t.clock.clk) ∧
    (∀ mgt core sd, dead s = false → s.dev.stage = 0 → ∃ t, exec (.refclkCheck mgt core sd) s = .next t ∧ OnlyChanges [.dev] s t ∧
      t.dev.refs = b2n mgt * 512 + b2n core * 256 + sd % 256 ∧ t.dev.stage = (if mgt then 1 else 0))) ∧
  (∀ (s : State) (mgt core : Bool) (sd : Nat), running s = true →
    ((∀ f, f < 8 → bit s.dev.refs f = true → bit sd f = true) → (bit s.dev.refs 8 = true → core = true) →
      exec (.refclkCheck mgt core sd) s = .next { s with dev.refs := b2n mgt * 512 + b2n core * 256 + sd % 256 }) ∧
    ((∀ f, f < 8 → bit s.dev.refs f = true → bit sd f = true) → bit s.dev.refs 8 = true → core = false →
      ∃ t, exec (.refclkCheck mgt core sd) s = .next t ∧ t.flt.stopped = true ∧ LastFault 9 3 s t)) ∧
  (∀ s : State, dead s = false → recovery s = true → s.dev.mgmtLinked = false →
    exec (.mgmtLinkTry true) s = .next { s with dev.mgmtLinked := true } ∧
    (∃ t, exec (.mgmtLinkTry false) s = .next t ∧ OnlyChanges [.dev, .clock] s t ∧ t.dev.mgmtTry10g = !s.dev.mgmtTry10g ∧
      t.clock.clk = max s.clock.clk (s.dev.mgmtTryAt + 100000000) ∧ t.dev.mgmtTryAt = t.clock.clk))

/-- R447, R373, R374, R449, R453, Table 16-2: the stages follow each other; a stage that fails leads to recovery with its ERR; a
cold boot leaves HBM zero, a warm one keeps it. The capsule's own writes are not in this statement. -/
def Obligations.BootStages : Prop := ∀ s : State, boots s →
  (s.dev.stage = 1 → s.dev.flash.helper = true → ∃ t, exec (.bootStageComplete .ok) s = .next t ∧ OnlyChanges [.dev, .sec] s t ∧
    t.dev.stage = 2 ∧ t.sec.pufOk = true ∧ t.sec.nodeId = nodeIdOf ∧ t.sec.owned = s.dev.flash.owner.isSome) ∧
  (∀ e, s.dev.stage = 1 → s.dev.flash.helper = true → e ≠ 0 → ∃ t, exec (.bootStageComplete (.fail e)) s = .next t ∧
    OnlyChanges [.dev, .sec] s t ∧ recovery t = true ∧ t.dev.bootErr = e ∧ t.sec.image = none) ∧
  (∀ i, s.dev.stage = 2 → s.dev.flash.image = some i → ∃ t, exec (.bootStageComplete .ok) s = .next t ∧ OnlyChanges [.dev, .sec] s t ∧
    (match imageErr i with
      | none => t.dev.stage = 3 ∧ t.sec.image = some i
      | some e => recovery t = true ∧ t.dev.bootErr = e ∧ t.sec.image = none)) ∧
  (s.dev.stage = 3 → ∃ t, exec (.bootStageComplete .ok) s = .next t ∧ OnlyChanges [.dev, .sec, .freeCtr] s t ∧ t.dev.stage = 4) ∧
  (s.dev.stage = 4 → s.dev.flash.capsule = none → ∃ t, exec (.bootStageComplete .ok) s = .next t ∧ OnlyChanges [.dev] s t ∧
    t.dev.stage = 5 ∧ t.dev.bootErr = s.dev.bootErr) ∧
  (s.dev.stage = 5 → s.dev.bootErr = 0 → bit s.dev.refs 8 = true → ∃ t, exec (.bootStageComplete .ok) s = .next t ∧
    OnlyChanges [.dev, .mem, .poison, .comps] s t ∧ t.dev.stage = 7 ∧ t.dev.warm = false ∧ (comp t 0).st = 1 ∧
    (s.dev.warm = true → HbmSame s t) ∧ (s.dev.warm = false → t.mem = [] ∧ t.poison = []))

/-- R451: once the timebase is locked, or no port asks for PTP, the device enters FULL and every port in service trains again. Said
of a device whose switch core and trackers hold nothing. -/
def Obligations.FullEntryRetrains : Prop := ∀ s : State, running s = true → s.dev.stage = 7 → s.dev.devState = .baseCamp →
  (s.clock.tbState = 2 ∨ anyPtp s = false) → s.sw.voq = [] → s.sw.egress = [] → s.xlt.trays = [] → keysRise s.lports = true →
  ∃ t, exec .fullEntry s = .next t ∧ t.dev.stage = 8 ∧ t.dev.devState = .full ∧ HbmSame s t ∧ t.regs = s.regs ∧
    (∀ lp l, mget s.lports lp = some l → l.st ≠ 0 → l.st ≠ 7 → isLport s lp = true → modeOf s lp ≠ 0 →
      (lport t lp).st = 2 ∧ (lport t lp).penalty = l.penalty) ∧
    (∀ lp, (lport s lp).st = 0 ∨ (lport s lp).st = 7 → lport t lp = lport s lp)

/-- R415, R417, Table 15-1, Table 17-11: a Ridge link, a Crest PLL and an HBM controller that fail make the Talik stop itself with a
SELF_STOP record of their CAUSE: every fabric lane idles, and HBM stays. The watchdog restarts the control cores, which ends every
management session and brings a CORE_RESTART record; when they are back only that has changed. -/
def Obligations.DeviceFailures : Prop :=
  (∀ s : State, running s = true →
    (∃ t, exec .ridgeLinkFailure s = .next t ∧ t.flt.stopped = true ∧ LastFault 9 2 s t ∧ HbmSame s t ∧ (∀ lp, live t lp = false)) ∧
    (∀ c, c < 4 → ∃ t, exec (.crestPllLockLoss c) s = .next t ∧ t.flt.stopped = true ∧ LastFault 9 3 s t ∧ HbmSame s t ∧
      (∀ lp, live t lp = false) ∧ t.dev.plls = s.dev.plls - (s.dev.plls &&& 2 ^ c)) ∧
    (∃ t, exec .hbmControllerFailure s = .next t ∧ t.flt.stopped = true ∧ LastFault 9 4 s t ∧ HbmSame s t ∧ (∀ lp, live t lp = false))) ∧
  (∀ s : State,
    (mgmtUp s = true → ∃ t, exec .hutWatchdog s = .next t ∧ OnlyChanges [.dev, .sec, .flt, .ctrs, .cmd] s t ∧ t.dev.coresDown = true ∧
      t.sec.sessions = [] ∧ t.sec.keys = s.sec.keys ∧ LastFault 14 1 s t ∧ hostRdy t = false) ∧
    (s.dev.coresDown = true → exec .controlCoresRestart s = .next { s with dev.coresDown := false }))

/-- R79 to R81, R479, R480: a sample sets the warning bits of the places at their limits and keeps what it read; a place over the trip
limit in two samples in a row trips THERM_TRIP_N and stops the Talik. The power estimates are taken each 1 ms. A message of the parent sets
the timebase in BASE_CAMP and slews it elsewhere, with OFFSET_ALARM and a record beyond 1 ms; a locked timebase that loses its parent goes to
HOLDOVER and keeps its count. -/
def Obligations.SensorsAndTime : Prop :=
  (∀ s : State, dead s = false →
    (∀ dies sts, ((dies.take 13).all fun t => decide (t < 880)) = true → ((sts.take (hbmStacks s)).all fun t => decide (t < 100)) = true →
      ∃ t, exec (.thermSample dies sts) s = .next t ∧ OnlyChanges [.dev, .cmd] s t ∧ t.dev.dieNow = dies.take 13 ∧
        t.dev.hbmNow = sts.take (hbmStacks s) ∧ t.dev.thermTrip = s.dev.thermTrip ∧
        (∀ d, d < 13 → ∀ x, dies[d]? = some x → (bit t.dev.thermWarn d = true ↔
          bit s.dev.thermWarn d = true ∨ ((bits (reg s 0x0C000080) 15 8 : Nat) : Int) * 8 ≤ x))) ∧
    (∀ x dies sts, 880 ≤ x → s.dev.dieHot.head? = some true → s.flt.stopped = false → ∃ t, exec (.thermSample (x :: dies) sts) s = .next t ∧
      t.dev.thermTrip = true ∧ t.flt.stopped = true ∧ LastFault 9 6 s t) ∧
    (∀ est, ∃ t, exec (.pwrEstTick est) s = .next t ∧ OnlyChanges [.dev] s t ∧ t.dev.pwrNow = est.take 7)) ∧
  (∀ s : State,
    (∀ lp m, running s = true → isLport s lp = true → bit (lcfg s lp) 2 = true → live s lp = true → m.parent = true →
      ∃ t, exec (.ptpEventMessage lp m) s = .next t ∧ t.clock.srcPort = lp / 8 ∧ t.clock.tbState = (if m.locked then 2 else 1) ∧
        (s.dev.devState = .baseCamp → OnlyChanges [.lports, .clock] s t ∧ (t.clock.tb : Int) = max 0 ((s.clock.tb : Int) - m.offset)) ∧
        (s.dev.devState ≠ .baseCamp → t.clock.tb = s.clock.tb ∧ t.clock.slew = -m.offset ∧
          (1000000 < m.offset.natAbs → t.clock.offsetAlarm = true ∧ LastFault 15 1 s t) ∧
          (m.offset.natAbs ≤ 1000000 → OnlyChanges [.lports, .clock] s t ∧ t.clock.offsetAlarm = s.clock.offsetAlarm))) ∧
    (tbRuns s = true → s.clock.tbState = 2 →
      exec .holdover s = .next { s with clock.tbState := 3, clock.srcPort := 0xFF }))

/-- R461, R462, R464: FRZ_N freezes the device from the end of internal reset on; a read of frozen state that has ended fills
HUT_FRZ_DATA and RO_STAT, and with CONFIDENTIAL work seen since the reset the data is withheld. -/
def Obligations.Freezing : Prop := ∀ s : State,
  (dead s = false → s.dev.devState ≠ .bivouac → ∃ t, exec .frzNFall s = .next t ∧ OnlyChanges [.dev, .cmd] s t ∧
    t.dev.devState = .bivouac ∧ t.dev.frzInReset = s.dev.warm ∧ running t = false) ∧
  (∀ raw : DWord, s.dev.devState = .bivouac → s.dev.roBusy = true → ∃ t, exec (.readoutDone raw) s = .next t ∧ t.dev.roBusy = false ∧
    t.mem = s.mem ∧ t.regs = s.regs ∧
    (bits s.dev.roAddr 63 60 = 1 → bits s.dev.roAddr 59 58 = 0 → OnlyChanges [.dev] s t ∧
      (s.sec.confSeen = false → t.dev.roStat = 0 ∧ t.dev.frzData = raw.toNat) ∧
      (s.sec.confSeen = true → t.dev.roStat = 0x52 ∧ t.dev.frzData = 0)))

/-- R460, R466, R497, Table 16-7: the JTAG instructions select their registers while the TAP is powered; the boundary register is reached
in BIVOUAC and recovery only; FRZ_ACCESS reads frozen state only with JTAG_RO set. An SMBus Block Write with command 0x01 sets the read
address, and a Block Read with command 0x02 returns the word there, of the HUT and CLK blocks, in little-endian order; anything else is not
acknowledged. That the PEC is a CRC-8 is the model's (log entry 63). -/
def Obligations.JtagAndSmbus : Prop :=
  (∀ s : State, tapUp s = true →
    exec .idcode s = .next { s with dev.tapIr := 0, out := s.out ++ [.tdo 32 (if s.dev.part = .ct9616 then 0x19616B47 else 0x19608B47)] } ∧
    exec .bypass s = .next { s with dev.tapIr := 1, out := s.out ++ [.tdo 1 0] } ∧
    exec .tapReset s = .next { s with dev.tapIr := 0 } ∧
    (∀ v, scanAllowed s = true → exec (.samplePreload v) s = .next { s with dev.tapIr := 2, dev.boundary := v } ∧
      exec (.extest v) s = .next { s with dev.tapIr := 3, dev.boundary := v }) ∧
    (∀ v, scanAllowed s = false → exec (.samplePreload v) s = exec .bypass s ∧ exec (.extest v) s = exec .bypass s) ∧
    (∀ a : DWord, dead s = false → s.dev.devState = .bivouac → s.dev.jtagRo = true → exec (.frzAccess a) s = .next { s with
      dev.tapIr := 4, dev.jtagRead := some a.toNat, out := s.out ++ [.tdo 136 (a.toNat * 2 ^ 72 + 1)] }) ∧
    (∀ a : DWord, dead s = false → s.dev.devState = .bivouac → s.dev.jtagRo = false → exec (.frzAccess a) s = .next { s with
      dev.tapIr := 4, out := s.out ++ [.tdo 136 (a.toNat * 2 ^ 72 + 0x13)] })) ∧
  (∀ s : State,
    (∀ a7 data, smbMine s a7 = true → data.length = 4 →
      exec (.smbusBlockWrite a7 1 data true) s = .next { s with dev.smbPtr := leVal data }) ∧
    (∀ a7, smbMine s a7 = true → s.dev.smbPtr % 4 = 0 → s.dev.smbPtr < 0x01000000 → ∃ t bs,
      exec (.smbusBlockRead a7 2 true) s = .next t ∧ OnlyChanges [.out, .latched] s t ∧ t.out = s.out ++ [.smb bs] ∧
      bs.take 4 = le 4 (readWord .smbus false s.dev.smbPtr s).1) ∧
    (∀ a7 c data pec, smbMine s a7 = false ∨ pec = false ∨ c ≠ 1 →
      exec (.smbusBlockWrite a7 c data pec) s = .next { s with out := s.out ++ [.smbNack] }))

/-! ### Links (chapter 2) -/

/-- R53, R61, R69, R94: PCS lock takes a KMT port to INIT and sends LINKCTL INIT; a PLAIN port carries traffic at once. INIT is sent again
each 1 µs, each 1 ms in NO_KMT_PEER, which the port enters 1 ms after PCS lock when no INIT has come. A valid INIT is answered with an
INIT_ACK that echoes its body; the port is ACTIVE (DEGRADED on a part of its lanes) once it has an INIT and an INIT_ACK for its own, with
sequence numbers and credit as after link start. -/
def Obligations.LinkStarts : Prop :=
  (∀ (s : State) (lp : Nat), running s = true → isLport s lp = true → modeOf s lp ≠ 0 →
    ((lport s lp).st = 1 ∨ (lport s lp).st = 2 → isKmt s lp = true → ∃ t, exec (.pcsLock lp) s = .next t ∧ OnlyChanges [.lports, .out] s t ∧
      OtherPorts lp s t ∧ (lport t lp).st = 3 ∧ (lport t lp).lanes = startLanes s lp ∧ (lport t lp).lockAt = s.clock.clk ∧
      (lport t lp).epoch = (lport s lp).epoch + 1 ∧ t.out = s.out ++ [.link lp (initFrame t lp)]) ∧
    ((lport s lp).st = 1 ∨ (lport s lp).st = 2 → isKmt s lp = false → ∃ t, exec (.pcsLock lp) s = .next t ∧ OnlyChanges [.lports] s t ∧
      OtherPorts lp s t ∧ (lport t lp).st = 4 ∧ (lport t lp).lanes = startLanes s lp) ∧
    ((lport s lp).st = 3 ∨ (lport s lp).st = 8 → isKmt s lp = true → ∃ t, exec (.initTimer lp) s = .next t ∧
      OnlyChanges [.clock, .lports, .out] s t ∧ OtherPorts lp s t ∧ (lport t lp).st = (lport s lp).st ∧
      t.clock.clk = max s.clock.clk ((lport s lp).initAt + if (lport s lp).st = 8 then 1000000 else 1000) ∧
      t.out = s.out ++ [.link lp (initFrame s lp)]) ∧
    ((lport s lp).st = 3 → (lport s lp).gotInit = false → isKmt s lp = true → ∃ t, exec (.noKmtPeerTimeout lp) s = .next t ∧
      OnlyChanges [.clock, .lports] s t ∧ OtherPorts lp s t ∧ (lport t lp).st = 8 ∧ t.clock.clk = max s.clock.clk ((lport s lp).lockAt + 1000000))) ∧
  (∀ (s : State) (lp : Nat) (f : List Byte),
    rxOpen s lp = true → (lport s lp).st = 3 ∨ (lport s lp).st = 8 → (lport s lp).rehoming = false →
    (bodyOk s lp 64 4 f = true → byteAt f 30 = 1 → byteAt f 31 = 1 → (∀ n, n < 8 → 32 ≤ fld f (54 + 4 * n) 4) →
      ∃ t, exec (.linkctlInit lp f) s = .next t ∧ OnlyChanges [.lports, .out] s t ∧ OtherPorts lp s t ∧
        t.out = s.out ++ [.link lp (frameOf s lp (linkHeader 4 0 64 0 false 0 0 ++ bodyCrc ([2] ++ slice f 31 63)))] ∧
        ((lport s lp).gotAck = false → (lport t lp).st = 3 ∧ (lport t lp).gotInit = true) ∧
        ((lport s lp).gotAck = true → (lport t lp).st = linkedState s lp (lport s lp).lanes ∧ (lport t lp).peerNode = fld f 38 8 ∧
          (lport t lp).next = 0 ∧ (lport t lp).txSeq = 0 ∧ (lport t lp).peerLimit = (List.range 8).map (fun n => fld f (54 + 4 * n) 4) ∧
          (lport t lp).myLimit = (List.range 8).map (initLimit s lp))) ∧
    (bodyOk s lp 64 4 f = true → byteAt f 30 = 2 → byteAt f 31 = 1 → slice f 31 63 = (initBody s lp).drop 1 →
      ∃ t, exec (.linkctlInitAck lp f) s = .next t ∧ OnlyChanges [.lports] s t ∧ OtherPorts lp s t ∧
        ((lport s lp).gotInit = false → (lport t lp).st = 3 ∧ (lport t lp).gotAck = true) ∧
        ((lport s lp).gotInit = true → (lport t lp).st = linkedState s lp (lport s lp).lanes ∧
          (lport t lp).peerNode = (lport s lp).inNode ∧ (lport t lp).peerLimit = (lport s lp).inLimit)) ∧
    (bodyOk s lp 64 4 f = false → exec (.linkctlInit lp f) s = .next (rxBad lp (heard lp s)) ∧
      exec (.linkctlInitAck lp f) s = .next (rxBad lp (heard lp s))))

/-- R52, R54 to R56, R58, R77, R111: a correct DATA frame whose SEQ is NEXT is accepted, and its packets are handed on in order, the last
with the frame's cells of credit; one before NEXT is discarded with an ACK; one past NEXT brings a NAK with reason 2. A DATA frame is
started when it is the oldest of its class and credit and the replay buffer allow it; it takes the next sequence number, stays for replay, and under MACsec takes the next
packet number of the association in use. Said of a port that records nothing for capture. -/
def Obligations.DataFrames : Prop :=
  (∀ (s : State) (lp : Nat) (sec : Sec) (f : List Byte),
    kmtPort s lp = true → live s lp = true → modeOf s lp ≠ 4 → s.sw.capture = none → frameEtype f = etypeOf s lp →
    (macsecReq s lp = true → sec = .valid) → sec ≠ .invalid → (linkHdr f).hcrcOk = true → (linkHdr f).ver = 1 → (linkHdr f).subtype = 1 →
    0 < (linkHdr f).plen → (linkHdr f).plen ≤ 8192 → (linkHdr f).av = false →
    (∀ ok ps, seqDiff (linkHdr f).seq (lport s lp).next = 0 → readBlocks (ceilDiv (linkHdr f).plen 256) 0 (f.drop 30) = (ok, none) →
      parseBody (ok.take (linkHdr f).plen |>.length.succ) (ok.take (linkHdr f).plen) = (ps, .ok) → ps ≠ [] → (lport s lp).unacked < 15 →
      ∃ t, exec (.dataFrameReceive lp sec f .good) s = .next t ∧ OnlyChanges [.lports, .rx] s t ∧ OtherPorts lp s t ∧
        (lport t lp).next = ((lport s lp).next + 1) % 2 ^ 32 ∧ (lport t lp).unacked = (lport s lp).unacked + 1 ∧
        t.rx = s.rx ++ ps.mapIdx fun i p => { lp, tc := (linkHdr f).tc, pkt := p
                                              credit := if i + 1 = ps.length then ceilDiv (linkHdr f).plen 256 else 0 }) ∧
    (∀ fcs, seqDiff (linkHdr f).seq (lport s lp).next < 0 → ∃ t, exec (.dataFrameReceive lp sec f fcs) s = .next t ∧
      OnlyChanges [.lports, .out] s t ∧ OtherPorts lp s t ∧ (lport t lp).next = (lport s lp).next ∧
      t.out = s.out ++ [.link lp (ackFrame s lp 2 0)]) ∧
    (∀ fcs, 0 < seqDiff (linkHdr f).seq (lport s lp).next → (lport s lp).nak = none → ∃ t, exec (.dataFrameReceive lp sec f fcs) s = .next t ∧
      OnlyChanges [.lports, .ctrs, .out] s t ∧ OtherPorts lp s t ∧ (lport t lp).next = (lport s lp).next ∧
      CountedOne (portCtr lp 0x110) s t ∧ t.out = s.out ++ [.link lp (ackFrame s lp 3 2)])) ∧
  (∀ (s : State) (lp : Nat) (f : EFrame),
    kmtPort s lp = true → live s lp = true → txSecOk s lp = true → s.sw.capture = none → (lport s lp).replayQ = [] →
    s.sw.egress.find? (canStart s lp) = some f →
    ∃ t, exec (.dataFrameSend lp) s = .next t ∧ OnlyChanges [.lports, .sw, .ctrs, .cmd, .out] s t ∧ OtherPorts lp s t ∧
      t.sw.egress = s.sw.egress.erase f ∧ t.sw.voq = s.sw.voq ∧ (lport t lp).txSeq = ((lport s lp).txSeq + 1) % 2 ^ 32 ∧
      (lport t lp).next = (lport s lp).next ∧ (lport t lp).unacked = 0 ∧
      t.out = s.out ++ [.data lp (frameOf s lp (linkHeader 1 f.tc (plenOf f.poison (cargoBytes f.cargo)) 0 true (lport s lp).txSeq (lport s lp).next ++
          blocksOf (ceilDiv (cargoBytes f.cargo).length 256) (cargoBytes f.cargo))) f.poison
        (if macsecReq s lp then (txSaOf (lport s lp)).map (·.pn) else none)] ∧
      ∃ x ∈ (lport t lp).replay, x.seq = (lport s lp).txSeq ∧ x.body = cargoBytes f.cargo)

/-- R51, R56, R57, R58, R59, R60: an ACK moves the credit limits and frees what it acknowledges; a NAK in range starts a replay from
ACKSEQ; the ACK and NAK timers send their frames; the replay timer starts a replay from the oldest frame. -/
def Obligations.AcksAndReplays : Prop := ∀ (s : State) (lp : Nat), kmtPort s lp = true → live s lp = true →
  (∀ f, bodyOk s lp 32 2 f = true → ∃ t, exec (.ackReceive lp f) s = .next t ∧ OnlyChanges [.lports] s t ∧ OtherPorts lp s t ∧
    (lport t lp).peerLimit = (List.range 8).map (fun i => fld f (30 + 4 * i) 4) ∧ (lport t lp).st = (lport s lp).st ∧
    ((linkHdr f).av = true → 0 ≤ seqDiff (lport s lp).txSeq (linkHdr f).ackseq →
      (lport t lp).replay = (lport s lp).replay.filter fun x => decide (0 ≤ seqDiff x.seq (linkHdr f).ackseq))) ∧
  (∀ f, bodyOk s lp 32 3 f = true → 0 ≤ seqDiff (linkHdr f).ackseq (oldestSeq (lport s lp)) →
    seqDiff (linkHdr f).ackseq (lport s lp).txSeq ≤ 0 → (lport s lp).replayFrom ≠ some (linkHdr f).ackseq →
    ((lport s lp).replay.any fun x => decide (0 ≤ seqDiff x.seq (linkHdr f).ackseq)) = true → 1 < bits (kmtCfg s lp) 15 12 →
    ∃ t, exec (.nakReceive lp f) s = .next t ∧ OnlyChanges [.lports, .ctrs] s t ∧ OtherPorts lp s t ∧
      (lport t lp).replayQ = ((lport s lp).replay.filter fun x => decide (0 ≤ seqDiff x.seq (linkHdr f).ackseq)).map (·.seq) ∧
      (lport t lp).replayFrom = some (linkHdr f).ackseq ∧ CountedOne (portCtr lp 0x118) s t ∧ CountedOne (portCtr lp 0x120) s t) ∧
  (0 < (lport s lp).unacked → ∃ t, exec (.ackDelayExpiry lp) s = .next t ∧ OnlyChanges [.clock, .lports, .out] s t ∧ OtherPorts lp s t ∧
    t.clock.clk = max s.clock.clk ((lport s lp).unackedAt + bits (kmtCfg s lp) 5 0 * 50) ∧ (lport t lp).unacked = 0 ∧
    t.out = s.out ++ [.link lp (ackFrame s lp 2 0)]) ∧
  (∃ t, exec (.idleAckTimer lp) s = .next t ∧ OnlyChanges [.clock, .lports, .out] s t ∧ OtherPorts lp s t ∧
    t.clock.clk = max s.clock.clk ((lport s lp).lastTx + 1000) ∧ t.out = s.out ++ [.link lp (ackFrame s lp 2 0)]) ∧
  (∀ r at_, (lport s lp).nak = some ((lport s lp).next, r, at_) → ∃ t, exec (.nakHoldoffExpiry lp) s = .next t ∧
    OnlyChanges [.clock, .lports, .ctrs, .out] s t ∧ OtherPorts lp s t ∧ t.clock.clk = max s.clock.clk (at_ + 2000) ∧
    CountedOne (portCtr lp 0x110) s t ∧ t.out = s.out ++ [.link lp (ackFrame s lp 3 r)]) ∧
  (∀ x xs, (lport s lp).replay = x :: xs → (lport s lp).replayFrom ≠ some x.seq → 1 < bits (kmtCfg s lp) 15 12 →
    ∃ t, exec (.replayTmoExpiry lp) s = .next t ∧ OnlyChanges [.clock, .lports, .ctrs] s t ∧ OtherPorts lp s t ∧
      t.clock.clk = max s.clock.clk (x.sentAt + bits (kmtCfg s lp) 11 6 * 1000) ∧
      (lport t lp).replayQ = ((x :: xs).filter fun y => decide (0 ≤ seqDiff y.seq x.seq)).map (·.seq) ∧
      (lport t lp).replayFrom = some x.seq ∧ (lport t lp).replayRun = 1)

/-- R63 to R66, R69: a lane that fails starts a degrade to the widest group of good lanes, with a record; DEGRADE is repeated each 200 ns
and answered with DEGRADE_ACK; both ends move at SWITCH_CW; without an answer for 2.5 µs the port goes DOWN. Once a retrained lane has run
for RESTORE_MS the link widens as far as its good lanes allow; RESTORE is answered with RESTORE_ACK, which ends the repetition or, after
SWITCH_CW, the widening. SWITCH_CW is the model's free value (log entry 6). -/
def Obligations.LanesMove : Prop :=
  (∀ (s : State) (lp : Nat), kmtPort s lp = true → live s lp = true →
    (∀ lane c g, bit (lport s lp).lanes lane = true → bit (lport s lp).failed lane = false → width s lp ≠ 1 → bit (degCfg s lp) 0 = true →
      bit (lport s lp).peerCaps 0 = true → (lport s lp).move = none →
      laneGroup (lport s lp).lanes ((lport s lp).failed + 2 ^ lane) ([4, 2, 1].filter (· < popcount8 (lport s lp).lanes)) = some g →
      ∃ t cw, exec (.laneFail lp lane c) s = .next t ∧ OtherPorts lp s t ∧ HbmSame s t ∧ cw < 65536 ∧ LastFault 1 (laneCause c) s t ∧
        (lport t lp).move = some { mask := g, switchCw := cw, initiator := true, restore := false, startAt := s.clock.clk, sentAt := s.clock.clk } ∧
        t.out = s.out ++ [.marker lp (lport s lp).lanes (markerWord 0xD6 g cw)]) ∧
    (∀ m, m.crcOk = true → ∃ t, exec (.degrade lp m) s = .next t ∧ OnlyChanges [.lports, .out] s t ∧ OtherPorts lp s t ∧
      ((lport t lp).move.map fun x => (x.mask, x.switchCw, x.initiator)) = some (m.mask, m.switchCw, false) ∧
      t.out = s.out ++ [.marker lp (lport s lp).lanes (markerWord 0xDA m.mask m.switchCw)]) ∧
    (∀ x : LaneMove, (lport s lp).move = some x → x.initiator = true → x.restore = false → x.acked = false →
      (x.switched = false → ∀ m, m.crcOk = true → m.mask = x.mask →
        exec (.degradeAck lp m) s = .next (setLport lp (fun l => { l with move := some { x with acked := true } }) s)) ∧
      (x.switched = true → ∀ m, m.crcOk = true → m.mask = x.mask → ∃ t, exec (.degradeAck lp m) s = .next t ∧
        OnlyChanges [.lports, .ctrs] s t ∧ (lport t lp).lanes = x.mask ∧ (lport t lp).move = none ∧ CountedOne (portCtr lp 0x128) s t) ∧
      (∃ t, exec (.degradeRepeatTimer lp) s = .next t ∧ OnlyChanges [.clock, .lports, .out] s t ∧ OtherPorts lp s t ∧
        t.clock.clk = max s.clock.clk (x.sentAt + 200) ∧ t.out = s.out ++ [.marker lp (lport s lp).lanes (markerWord 0xD6 x.mask x.switchCw)]) ∧
      (noTrayOn s lp → ∃ t, exec (.degradeAckTimeout lp) s = .next t ∧ WentDown lp 2 4 s t ∧ t.clock.clk = max s.clock.clk (x.startAt + 2500))) ∧
    (∀ x : LaneMove, (lport s lp).move = some x → x.acked = true → ∃ t, exec (.switchCw lp) s = .next t ∧ OnlyChanges [.lports, .ctrs] s t ∧
      OtherPorts lp s t ∧ (lport t lp).lanes = x.mask ∧ (lport t lp).move = none ∧ (lport t lp).st = linkedState s lp x.mask)) ∧
  (∀ (s : State) (lp : Nat), kmtPort s lp = true → live s lp = true →
    (∀ lane g, bit (degCfg s lp) 1 = true → bit (lport s lp).failed lane = true → (lport s lp).move = none → bit (lport s lp).good lane = false →
      laneGroup (startLanes s lp) ((lport s lp).failed &&& (0xFF ^^^ ((lport s lp).good + 2 ^ lane)))
        ([8, 4, 2, 1].filter (popcount8 (lport s lp).lanes < ·)) = some g →
      ∃ t cw, exec (.restoreTimer lp lane) s = .next t ∧ OnlyChanges [.lports, .out, .freeCtr] s t ∧ OtherPorts lp s t ∧ cw < 65536 ∧
        ((lport t lp).move.map fun x => (x.mask, x.switchCw, x.restore)) = some (g, cw, true) ∧
        t.out = s.out ++ [.marker lp (lport s lp).lanes (markerWord 0xD9 g cw)]) ∧
    (∀ m, m.crcOk = true → ∃ t, exec (.restore lp m) s = .next t ∧ OnlyChanges [.lports, .out] s t ∧ OtherPorts lp s t ∧
      ((lport t lp).move.map fun x => (x.mask, x.switchCw, x.restore)) = some (m.mask, m.switchCw, true) ∧
      t.out = s.out ++ [.marker lp (lport s lp).lanes (markerWord 0xDB m.mask m.switchCw)]) ∧
    (∀ x : LaneMove, ∀ m, (lport s lp).move = some x → x.initiator = true → x.restore = true → m.crcOk = true → m.mask = x.mask →
      (x.switched = false → exec (.restoreAck lp m) s = .next (setLport lp (fun l => { l with move := some { x with acked := true } }) s)) ∧
      (x.switched = true → ∃ t, exec (.restoreAck lp m) s = .next t ∧ OnlyChanges [.lports, .ctrs] s t ∧ (lport t lp).lanes = x.mask ∧
        (lport t lp).move = none ∧ (lport t lp).st = linkedState s lp x.mask)))

/-- R71, R72, R74, Table 15-1: loss of alignment, 3 µs of silence and REHOME_MS without the peer take a port DOWN with their records and
a flap; a recomputed penalty damps and frees the port by SUPPRESS and REUSE. Said of a port with no tray request out on it. -/
def Obligations.LinksLost : Prop := ∀ (s : State) (lp : Nat), running s = true → isLport s lp = true →
  (noTrayOn s lp → live s lp = true ∨ (lport s lp).st = 3 ∨ (lport s lp).st = 8 → ∃ t, exec (.pcsAlignLoss lp) s = .next t ∧ WentDown lp 2 1 s t ∧
    t.clock.clk = s.clock.clk) ∧
  (noTrayOn s lp → kmtPort s lp = true → live s lp = true → ∃ t, exec (.silenceTimeout lp) s = .next t ∧ WentDown lp 2 2 s t ∧
    t.clock.clk = max s.clock.clk ((lport s lp).lastRx + 3000)) ∧
  (noTrayOn s lp → kmtPort s lp = true → (lport s lp).st = 6 → ∃ t, exec (.rehomeMsExpiry lp) s = .next t ∧ WentDown lp 3 1 s t ∧
    t.clock.clk = max s.clock.clk ((lport s lp).rehomeAt + bits (linkCfg s lp) 5 0 * 1000000)) ∧
  (bit (linkCfg s lp) 31 = true → ∃ t, exec (.penaltyRecompute lp) s = .next t ∧ OnlyChanges [.lports, .freeCtr] s t ∧ OtherPorts lp s t ∧
    (lport t lp).penNow = penaltyNow s lp ∧
    ((lport s lp).st = 7 → (lport t lp).st = if penaltyNow s lp < bits (linkCfg s lp) 15 8 * 250 then 1 else 7) ∧
    ((lport s lp).st ≠ 7 → (lport s lp).st ≠ 0 →
      (lport t lp).st = if bits (linkCfg s lp) 23 16 * 250 < penaltyNow s lp then 7 else (lport s lp).st))

/-- R45, R46, R104, R339: a PLAIN frame is queued toward the port of its destination MAC or dropped and counted as unknown; PFC pauses and
resumes a priority; LLDP goes to the Hut; ARP and neighbour solicitations for the Talik's addresses are answered. -/
def Obligations.PlainFrames : Prop := ∀ (s : State) (lp : Nat), running s = true → isLport s lp = true → live s lp = true →
  isKmt s lp = false →
  (∀ f : PlainFrame, modeOf s lp ≠ 0 → modeOf s lp ≠ 4 → macsecReq s lp = false → f.etype ≠ etypeOf s lp → f.len ≤ 9216 →
    s.sw.capture = none →
    (macLookup s f.dstMac = none → exec (.plainFrameReceive lp .absent f .good) s = .next (count 0x02000420 (heard lp s))) ∧
    (∀ l r q, macLookup s f.dstMac = some l → modeOf s l ≠ 3 → l ≠ lp → live s l = true →
      carveTake s (crestOf lp) (f.pcp.getD 4 % 8) (ceilDiv f.len 256) = some (r, q) →
      ∃ u, exec (.plainFrameReceive lp .absent f .good) s = .next (pfcCheck u) ∧ OnlyChanges [.lports, .sw] s u ∧
        (∃ v, u.sw.voq = s.sw.voq ++ [v] ∧ v.cargo = .plain f ∧ v.legs = [{ out := outPort (l / 8), lp := l }] ∧ v.resv = r ∧ v.pool = q ∧
          v.tc = f.pcp.getD 4 % 8 ∧ v.ilp = lp ∧ v.poison = false))) ∧
  (∀ prio quanta, bit (lcfg s lp) 1 = true → ∃ u, exec (.pfcFrameReceive lp prio quanta) s = .next (flushEgress u) ∧ OnlyChanges [.lports] s u ∧
    OtherPorts lp s u ∧ (quanta = 0 → mget (lport u lp).paused prio = none) ∧
    (quanta ≠ 0 → mget (lport u lp).paused prio = some (s.clock.clk + quanta * 512 /
      (max 1 (popcount8 (lport s lp).lanes) * (if s.dev.devState = .baseCamp then 100 else 200))))) ∧
  (∀ b, exec (.lldpFrame lp b) s = .next { heard lp s with toHut := s.toHut ++ [(lp, b)] }) ∧
  (∀ mac ip, modeOf s lp = 4 → exec (.arpRequest lp (reg s 0x08000018) mac ip) s =
    .next (emit (.arp lp (reg s 0x08000018) (reg64 s 0x08000010 % 2 ^ 48) mac ip) (heard lp s))) ∧
  (∀ mac ip, modeOf s lp = 4 → exec (.neighbourSolicitation lp (cmdIpv6 s) mac ip) s =
    .next (emit (.nadv lp (cmdIpv6 s) (reg64 s 0x08000010 % 2 ^ 48) mac ip) (heard lp s)))

/-! ### Switch core (chapter 3) -/

/-- R83, R89, R102: a match gives every scheduler output to at most one head, and every input to one output but for the copies of one
multicast frame. -/
def Obligations.MatchIsAMatching : Prop := ∀ s : State,
  ((matchCycle s).pairs.map (·.out)).Nodup ∧
  ∀ a ∈ (matchCycle s).pairs, ∀ b ∈ (matchCycle s).pairs, a.inp = b.inp → a = b ∨ (a.fid = b.fid ∧ a.mcast = true)

/-- R83, R85: when the replicas agree the matched heads move, up to two cells each; when they do not, no cell moves, the cycle is counted,
and only more cancellations in 1 ms than SWX_CFG allows stop the Talik. -/
def Obligations.MatchingCycles : Prop := ∀ s : State, running s = true →
  (exec (.matchingCycle true) s = .next (pfcCheck (flushEgress (unstall (each (matchCycle (dropDead s)).pairs slot
    (shiftL3 (matchCycle (dropDead s)).pairs
      { dropDead s with sw.gptr := (matchCycle (dropDead s)).gptr, sw.aptr := (matchCycle (dropDead s)).aptr })))))) ∧
  (∃ t, exec (.matchingCycle false) s = .next t ∧ t.sw.voq = (dropDead s).sw.voq ∧ t.sw.egress = s.sw.egress ∧ HbmSame (dropDead s) t ∧
    CountedOne 0x02000408 (dropDead s) t ∧ t.sw.resyncs = (s.sw.resyncs.filter fun x => decide (s.clock.clk < x + 1000000)) ++ [s.clock.clk] ∧
    (t.sw.resyncs.length ≤ bits (reg s 0x02000000) 7 0 → t.flt = s.flt) ∧
    (bits (reg s 0x02000000) 7 0 < t.sw.resyncs.length → t.flt.stopped = true))

/-! ### The memory transport (chapter 4) -/

/-- R114, R115, R116, R128: an accepted RD, WR or atomic on an HBM extent takes its place in flight and gives its one operation to
the memory units at the extent's address. Said where the composition is not mirrored and nothing combines. -/
def Obligations.HbmRequests : Prop := ∀ oc ∈ memRows, ∀ (s : State) (lp tc : Nat) (p : Kmt) (x : Nat) (e : Extent),
  p.opcode = oc.1 → Accepts s lp tc p → ringAt s p.space p.addr = none → extAt s p.space p.addr = some (x, e) → e.hbm = true →
  coherentAt s p.space p.addr = false → mirrorBit s p.comp = false → alone s lp tc p.opcode →
  ∃ u, exec (oc.2 lp tc p) s = .next (settleXlt u) ∧ OnlyChanges [.xlt, .rx, .lports, .out] s u ∧
    u.xlt.reqs = s.xlt.reqs ++ [newReq s lp tc p] ∧ u.xlt.trays = s.xlt.trays ∧
    u.xlt.ops = s.xlt.ops ++ [{ id := s.xlt.nextId + 1, addr := extAddr e p.addr, op := memOpOf p, why := .req s.xlt.nextId }]

/-- R128, R129, R130, R131: on a tray extent the request is translated, tracked under a TAG of its own, and sent on the port and
channel that the hash of its tray-local address picks. -/
def Obligations.TrayRequests : Prop := ∀ oc ∈ memRows, ∀ (s : State) (lp tc : Nat) (p : Kmt) (x : Nat) (e : Extent) (l ch : Nat),
  p.opcode = oc.1 → Accepts s lp tc p → ringAt s p.space p.addr = none → extAt s p.space p.addr = some (x, e) → e.hbm = false →
  coherentAt s p.space p.addr = false → mirrorBit s p.comp = false → alone s lp tc p.opcode →
  trayPick s e.tray (extAddr e p.addr) = some (l, ch) →
  ∃ u tag, exec (oc.2 lp tc p) s = .next (settleXlt u) ∧ OnlyChanges [.xlt, .rx, .lports, .out, .sw, .comps, .freeCtr] s u ∧
    u.xlt.reqs = s.xlt.reqs ++ [newReq s lp tc p] ∧ u.xlt.ops = s.xlt.ops ∧
    let pkt : Kmt := { p with job := 0, space := 0, src := selfEp s, dst := trayEp s e.tray, tag, chan := ch, addr := extAddr e p.addr
                              rtx := false, rsp := false, load := 0, status := 0, cmb := false }
    u.xlt.trays = s.xlt.trays ++ [{ tag, tray := e.tray, lp := l, tc, crest := crestOf lp, pkt, ext := some x, sentAt := s.clock.clk
                                    why := .req s.xlt.nextId }] ∧ Queued l tc pkt u

/-- Table 4-3, R125, R126, R138: a request that a row turns away has no effect but its answer, or its drop, and the row's counter.
A message, and its response, goes on toward DST unchanged, on the port of the destination's route, with the link credit it holds; an ACCEL
port's SRC must be its endpoint's, and pays with 64 + LEN bytes of its rate. -/
def Obligations.RefusedAndForwarded : Prop :=
  (∀ oc ∈ memRows, ∀ (s : State) (lp tc : Nat) (p : Kmt) (o : Ls),
    p.opcode = oc.1 → takesPackets s lp = true → meetsIntent s p = false → p.rsp = false → lsCheck (takeRx lp tc p s) lp tc p = o → o ≠ .ok →
    ∃ t, exec (oc.2 lp tc p) s = .next t ∧ OnlyChanges [.rx, .lports, .out, .ctrs, .sw, .freeCtr] s t ∧
      match o with
      | .refuse d st _ c => (∃ load, Queued lp tc { response p (selfEp s) st load [] with dst := d } t) ∧ (c ≠ 0 → CountedOne c s t)
      | .cached c => (∃ load, Queued lp tc (response p (selfEp s) c.status load c.data) t) ∧ CountedOne 0x03000440 s t
      | .drop c => t.sw = s.sw ∧ CountedOne c s t
      | _ => t.sw = s.sw ∧ t.ctrs = s.ctrs) ∧
  (∀ (s : State) (lp tc : Nat) (p : Kmt) (l : Nat), takesPackets s lp = true →
    routeOf s p.dst = .port l → live s l = true → modeOf s l ≠ 1 ∨ epComp s l = p.comp →
    (∀ oc ∈ msgRows, p.opcode = oc.1 → p.rsp = false → modeOf s lp = 1 → epValid s lp = true → p.src = epId s lp → p.comp = epComp s lp →
      0 < (bucket s lp).fill → ∃ t, exec (oc.2 lp tc p) s = .next t ∧ OnlyChanges [.rx, .xlt, .sw] s t ∧ Queued l tc p t ∧
        t.rx = s.rx.erase { lp, tc, pkt := p, credit := rxCredit s lp tc p } ∧
        (mget t.xlt.buckets lp).map (·.fill) = some ((bucket s lp).fill - ((64 + p.len) * 4 : Nat))) ∧
    (∀ oc ∈ msgRows, p.opcode = oc.1 → p.rsp = false → modeOf s lp = 3 → ∃ t, exec (oc.2 lp tc p) s = .next t ∧
      OnlyChanges [.rx, .sw] s t ∧ Queued l tc p t) ∧
    (p.rsp = true → p.dst ≠ selfEp s → ∃ t, exec (.messageResponse lp tc p) s = .next t ∧ OnlyChanges [.rx, .sw] s t ∧ Queued l tc p t) ∧
    (∀ oc ∈ msgRows, p.opcode = oc.1 → p.rsp = false → modeOf s lp = 1 → epValid s lp = true → p.src ≠ epId s lp ∨ p.comp ≠ epComp s lp →
      ∃ t load, exec (oc.2 lp tc p) s = .next t ∧ CountedOne 0x03000410 s t ∧ t.xlt = s.xlt ∧ HbmSame s t ∧
        Queued lp tc (response p (selfEp s) 0x13 load []) t))

/-- R114, R115, R116: when the memory units perform a request's operation, a read is answered with the bytes there; a write and an
atomic change exactly their bytes. Said of words without errors, where nothing holds the operation back. -/
def Obligations.HbmOperations : Prop := ∀ (s : State) (id : Nat) (o : HbmOp) (r : Req),
  running s = true → s.xlt.ops.find? (·.id == id) = some o → opBlocked s o = false → o.why = .req r.id → findReq s r.id = some r →
  s.poison = [] →
  (∀ n, o.op = .read n → ∃ u, exec (.hbmResponse id []) s = .next (settleAll (settleXlt u)) ∧ ReqGone r.id s u ∧
    u.xlt.ops = s.xlt.ops.filter (·.id != id) ∧ HbmSame s u ∧ Responded r 0 (memRead s.mem o.addr n) u) ∧
  (∀ d, o.op = .write d → ∃ u, exec (.hbmResponse id []) s = .next (settleAll (gateOpenAt o.addr d.length (settleXlt u))) ∧
    ReqGone r.id s u ∧ u.xlt.ops = s.xlt.ops.filter (·.id != id) ∧ Responded r 0 [] u ∧
    (∀ a, memByte u.mem a = if o.addr ≤ a ∧ a < o.addr + d.length then d.getD (a - o.addr) 0 else memByte s.mem a)) ∧
  (∀ op w v, o.op = .atomic op w v → ∃ u, exec (.hbmResponse id []) s = .next (settleAll (gateOpenAt o.addr w (settleXlt u))) ∧
    ReqGone r.id s u ∧ u.xlt.ops = s.xlt.ops.filter (·.id != id) ∧ Responded r 0 (memRead s.mem o.addr w) u ∧
    leVal (memRead u.mem o.addr w) = atomFold op w (leVal (memRead s.mem o.addr w)) v ∧
    (∀ a, a < o.addr ∨ o.addr + w ≤ a → memByte u.mem a = memByte s.mem a))

/-- Table 4-2, R135: the value each atomic leaves, for the old value and the operand's; the one atomic of a combining window leaves what
its requests would have left one after the other, and answers each with the value it would have found. -/
def Obligations.AtomicValues : Prop :=
  (∀ (w old : Nat) (v : List Byte), old < 2 ^ (8 * w) →
    atomFold 0x10 w old v = (old + fld v 0 w) % 2 ^ (8 * w) ∧
    atomFold 0x11 w old v = old &&& fld v 0 w ∧ atomFold 0x12 w old v = old ||| fld v 0 w ∧ atomFold 0x13 w old v = old ^^^ fld v 0 w ∧
    sgn (8 * w) (atomFold 0x14 w old v) = max (sgn (8 * w) old) (sgn (8 * w) (fld v 0 w)) ∧
    sgn (8 * w) (atomFold 0x15 w old v) = min (sgn (8 * w) old) (sgn (8 * w) (fld v 0 w)) ∧
    atomFold 0x16 w old v = fld v 0 w ∧
    atomFold 0x17 w old v = (if fld v 0 w = old then fld v w w else old) ∧
    (∀ op, atomFold op w old v < 2 ^ (8 * w))) ∧
  (∀ op, 0x10 ≤ op → op ≤ 0x15 → ∀ (w old : Nat), 0 < w → old < 2 ^ (8 * w) →
    ∀ (v : List Byte) (vs : List (List Byte)), (∀ x ∈ v :: vs, x.length = w) →
    atomFold op w old (vs.foldl (operandFold op w) v) = (v :: vs).foldl (atomFold op w) old ∧
    (prefixes op w old (v :: vs)).length = vs.length + 1 ∧
    ∀ i, i ≤ vs.length → (prefixes op w old (v :: vs))[i]? = some (le w (((v :: vs).take i).foldl (atomFold op w) old)))

/-- R116, R170: a FLUSH waits for the WRs and atomics that its SRC sent earlier to the space on the port; a PUBLISH joins its region's
queue. The first publish whose flush is over makes a higher Cairn current and is answered with it; one that is not above the current
Cairn is answered VERSION_CONFLICT with that. -/
def Obligations.FlushAndPublish : Prop :=
  (∀ (s : State) (lp tc : Nat) (p : Kmt), Accepts s lp tc p →
    (p.opcode = 0x20 → ∃ u, exec (.flush lp tc p) s = .next (settleXlt (settleXlt u)) ∧ OnlyChanges [.xlt, .rx, .lports, .out] s u ∧
      u.xlt.reqs = s.xlt.reqs ++ [newReq s lp tc p] ∧ u.xlt.ops = s.xlt.ops ∧
      (∀ i, i ∈ (newReq s lp tc p).waits ↔ ∃ r ∈ s.xlt.reqs, r.id = i ∧ r.lp = lp ∧ r.pkt.src = p.src ∧ r.pkt.space = p.space ∧
        (r.pkt.opcode = 0x02 ∨ isAtomic r.pkt.opcode = true))) ∧
    (∀ i r, p.opcode = 0x21 → regionAt s p.space p.addr = some (i, r) →
      ∃ u, exec (.publish lp tc p) s = .next (settleXlt (runPubs (s.dir.pubs.length + 2) u)) ∧
        OnlyChanges [.xlt, .dir, .rx, .lports, .out] s u ∧ u.xlt.reqs = s.xlt.reqs ++ [newReq s lp tc p] ∧ u.xlt.ops = s.xlt.ops ∧
        u.dir.pubs = s.dir.pubs ++ [{ id := s.xlt.nextId + 1, region := i, cairn := leVal (p.payload.take 8), who := .req s.xlt.nextId }])) ∧
  (∀ (s : State) (q : Pub) (r : Region) (q' : Req),
    q.stage = 0 → q.who = .req q'.id → findReq s q'.id = some q' → q'.waits = [] → q'.pkt.opcode = 0x21 →
    (∀ v ∈ s.dir.pubs, v.region = q.region → q.id ≤ v.id) → mget s.dir.regions q.region = some r → mirrorBit s (spaceComp s r.space) = false →
    (r.cairn < q.cairn → r.cwEn = false → Responded q' 0 (le 8 q.cairn) (stepPub q s) ∧ ReqGone q'.id s (stepPub q s) ∧
      (mget (stepPub q s).dir.regions q.region).map (·.cairn) = some q.cairn) ∧
    (q.cairn ≤ r.cairn → Responded q' 0x31 (le 8 r.cairn) (stepPub q s) ∧ ReqGone q'.id s (stepPub q s) ∧
      (stepPub q s).dir.regions = s.dir.regions))

/-- R130, R132: a tray's answer ends its tracker entry; OK and POISONED pass on with their data, any other status is TIER_ERROR with a
record; an answer that no entry expects is counted. A request unanswered for TRAY_TMO is sent again once, with RTX = 1, and then ends
with TIER_ERROR. -/
def Obligations.TrayAnswers : Prop := ∀ s : State,
  (∀ lp tc p r q, takesPackets s lp = true → p.rsp = true → r ∈ s.xlt.trays → r.why = .req q → r.intent = none → (∃ a, findReq s q = some a) →
    s.xlt.trays.find? (fun r => r.tag == p.tag && r.sent && r.pkt.opcode == p.opcode && r.pkt.dst == p.src && r.pkt.src == p.dst) = some r →
    (p.status = 0 ∨ p.status = 0x20 → ∃ u, exec (.trayResponse lp tc p) s = .next (settleAll (settleXlt u)) ∧ ReqGone q s u ∧
      u.xlt.trays = s.xlt.trays.filter (· != r) ∧ HbmSame s u ∧ ∀ a, findReq s q = some a → Responded a p.status (p.payload.take p.len) u) ∧
    (p.status ≠ 0 → p.status ≠ 0x20 → ∃ u k sp, exec (.trayResponse lp tc p) s = .next (settleAll (tierFault 3 k sp (settleXlt u))) ∧
      ReqGone q s u ∧ HbmSame s u ∧ ∀ a, findReq s q = some a → Responded a 0x21 [] u)) ∧
  (∀ lp tc p, takesPackets s lp = true → p.rsp = true →
    s.xlt.trays.find? (fun r => r.tag == p.tag && r.sent && r.pkt.opcode == p.opcode && r.pkt.dst == p.src && r.pkt.src == p.dst) = none →
    ∃ u, exec (.trayResponse lp tc p) s = .next (settleAll u) ∧ OnlyChanges [.rx, .lports, .out, .ctrs] s u ∧ CountedOne 0x03000458 s u) ∧
  (∀ id r q, running s = true → s.xlt.trays.find? (fun r => trayKey r == id && r.sent) = some r → r.why = .req q → r.intent = none →
    (∀ x, r.ext = some x → drainDue s x (r.sentAt + trayTmoNs s) = false) →
    (∀ l ch, r.reissued = false → trayPick s r.tray r.pkt.addr = some (l, ch) → ∃ u, exec (.trayTmoExpiry id) s = .next (settleAll u) ∧
      OnlyChanges [.clock, .ctrs, .xlt, .sw] s u ∧ CountedOne 0x03000448 s u ∧ u.clock.clk = max s.clock.clk (r.sentAt + trayTmoNs s) ∧
      Queued l r.tc { r.pkt with rtx := true } u ∧ { r with lp := l, reissued := true, sentAt := u.clock.clk } ∈ u.xlt.trays) ∧
    (∀ a, r.reissued = true → findReq s q = some a → ∃ u c sp, exec (.trayTmoExpiry id) s =
      .next (settleAll (tierFault c r.pkt.comp sp (settleXlt u))) ∧ ReqGone q s u ∧ HbmSame s u ∧ Responded a 0x21 [] u))

/-- R31, R133 to R135, R137: a window that reaches WIN closes: an RD window only takes no more requests, an atomic window then gives one
atomic, of its operands folded, to the memory. A Crest's decision each 10 µs takes the pinned mode of each class, or in AUTO compares
the share of requests that joined with the two thresholds. -/
def Obligations.Combining : Prop :=
  (∀ (s : State) (id : Nat) (w : Window), s.xlt.windows.find? (·.id == id) = some w → w.isOpen = true →
    (isAtomWin w = false → exec (.combWindowClose id) s = .next (settleXlt { atLeast (w.at_ + combWin s) s with
      xlt.windows := modIf (·.id == id) (fun v => { v with isOpen := false }) s.xlt.windows })) ∧
    (∀ r rs x e, isAtomWin w = true → w.reqs.filterMap (findReq s) = r :: rs → r.ext = some x → mget s.xlt.extents x = some e → e.hbm = true →
      coherentAt s r.pkt.space r.pkt.addr = false → mirrorBit s r.pkt.comp = false → r.pkt.opcode = w.op → w.op ≠ 0x02 →
      ∃ u, exec (.combWindowClose id) s = .next (settleXlt u) ∧ OnlyChanges [.clock, .xlt] s u ∧
        u.clock.clk = max s.clock.clk (w.at_ + combWin s) ∧ u.xlt.windows = modIf (·.id == id) (fun v => { v with isOpen := false }) s.xlt.windows ∧
        u.xlt.ops = s.xlt.ops ++ [{ id := s.xlt.nextId, addr := extAddr e r.pkt.addr, why := .window id
                                    op := .atomic w.op (atomWidth w.op r.pkt.len) (((winOperands s w).drop 1).foldl (operandFold w.op w.len)
                                      ((winOperands s w).headD [])) }])) ∧
  (∀ (s : State) (crest : Nat), running s = true → crest < 4 →
    ∃ t, exec (.combDecision crest) s = .next t ∧ OnlyChanges [.clock, .xlt] s t ∧ t.clock.clk = ceilDiv s.clock.clk 10000 * 10000 ∧
      t.xlt.ops = s.xlt.ops ∧ t.xlt.reqs = s.xlt.reqs ∧
      (∀ c tc, tc = 1 ∨ tc = 3 → c ≠ crest → combOn t c tc = combOn s c tc) ∧
      ∀ tc, tc = 1 ∨ tc = 3 →
        let m := if tc = 1 then bits (reg s 0x0200000C) 1 0 else bits (reg s 0x0200000C) 3 2
        let n := mgetD s.xlt.comb (combKey crest tc) {}
        (m = 1 → combOn t crest tc = true) ∧ (m = 2 → combOn t crest tc = false) ∧
        (m ≠ 1 → m ≠ 2 → 0 < n.joinable → bits (reg s 0x0200000C) 31 24 * n.joinable ≤ 256 * n.joined → combOn t crest tc = true) ∧
        (m ≠ 1 → m ≠ 2 → 0 < n.joinable → 256 * n.joined < bits (reg s 0x0200000C) 31 24 * n.joinable →
          256 * n.joined < bits (reg s 0x0200000C) 23 16 * n.joinable → combOn t crest tc = false) ∧
        (m ≠ 1 → m ≠ 2 → n.joinable = 0 → combOn t crest tc = combOn s crest tc))

/-- R31, R138, R142, R143: every 5 µs each ACCEL binding takes its new rate under AUTO, within its bounds; a saved reply goes after
E2E_HOLD; at the drain timeout of a revocation every request still in flight on the extent ends and its operations go. -/
def Obligations.TransportTimers : Prop :=
  (∀ s : State, running s = true → keysRise s.lports = true →
    ∃ t, exec .rateAdjust s = .next t ∧ OnlyChanges [.clock, .xlt, .ctrs] s t ∧ t.clock.clk = ceilDiv s.clock.clk 5000 * 5000 ∧
      t.xlt.reqs = s.xlt.reqs ∧ t.xlt.ops = s.xlt.ops ∧ t.xlt.rateFixed = bit (reg s 0x03000004) 0 ∧
      (bit (reg s 0x03000004) 0 = true → t.xlt.buckets = s.xlt.buckets ∧ t.ctrs = s.ctrs) ∧
      (∀ lp l, bit (reg s 0x03000004) 0 = false → mget s.lports lp = some l → isLport s lp = true → modeOf s lp = 1 → epValid s lp = true →
        let used := poolUsed s (crestOf lp) * 100
        (mget t.xlt.buckets lp).map (·.rate) = some
          (if bits (reg s 0x03000004) 23 16 * poolSize s < used then max (epRateMin s lp) (effRate s lp - effRate s lp / 8)
           else if used < bits (reg s 0x03000004) 15 8 * poolSize s then min (epRateMax s lp) (effRate s lp + effRate s lp / 8)
           else effRate s lp))) ∧
  (∀ s : State,
    (∀ crest src tag c, s.xlt.cache.find? (fun c => c.crest == crest && c.src == src && c.tag == tag) = some c →
      exec (.replyCacheExpiry crest src tag) s = .next { atLeast (c.at_ + e2eHold s) s with xlt.cache := s.xlt.cache.filter (· != c) }) ∧
    (∀ x v, running s = true → s.xlt.revokes.find? (·.ext == x) = some v → v.fencing = false →
      (∀ r ∈ s.xlt.trays, r.ext = some x → r.reissued = false ∧ ∃ i, r.why = .req i) → (∀ o ∈ extOps s x, ∃ i, o.why = .req i) →
      ∃ u, exec (.drainTimeout x) s = .next (settleAll (settleXlt u)) ∧ u.clock.clk = max s.clock.clk (v.at_ + drainNs s) ∧ HbmSame s u ∧
        (∀ r ∈ u.xlt.reqs, r.ext ≠ some x ∧ ∃ q ∈ s.xlt.reqs, q.id = r.id) ∧ (∀ r ∈ u.xlt.trays, r ∈ s.xlt.trays ∧ r.ext ≠ some x) ∧
        u.xlt.ops = s.xlt.ops.filter fun o => !(extOps s x).contains o))

/-! ### The Coherent Aperture (chapter 5) -/

/-- R149, R154, R155, R157, R159, R162, Table 5-3: a CRD_S, CRD_X or CUPG of a line that nobody holds reads the line from memory, to be
granted in E or M; a CUPG of its only sharer or of the E owner is granted M without data at once and starts a Belay hold; a CEVICT of the
owner leaves I; a CWB of the M owner writes the line to memory; a CWB of an agent that is not the owner only counts. A CRD_S of a line that
another agent owns makes its owner share it, and a CRD_X or CUPG invalidates the other holders: one probe to each, with the Belay hold's
delay or at once. -/
def Obligations.LinesAskedFor : Prop :=
  (∀ oc ∈ lineRows, ∀ (s : State) (lp tc : Nat) (p : Kmt) (apt x ex : Nat) (e : Extent),
    p.opcode = oc.1 → LineIdle s lp tc p apt x → extAt s p.space (lineOf p.addr) = some (ex, e) → e.hbm = true →
    let d := dirEnt s p.space (lineOf p.addr)
    let line := lineOf p.addr
    (p.opcode ≤ 0x32 → d.st = 0 → ∃ u t, exec (oc.2 lp tc p) s = .next (settleXlt (settleDir u)) ∧
      OnlyChanges [.xlt, .dir, .rx, .lports, .out, .ctrs] s u ∧ TxnIs p.space line t u ∧ t.phase = 2 ∧ t.req = lineReqOf s lp tc p x ∧
      t.grant = (if p.opcode = 0x30 then 2 else 3) ∧ t.next = { st := t.grant, ptrs := [x] } ∧ dirEnt u p.space line = d ∧
      u.xlt.reqs = s.xlt.reqs ++ [newReq s lp tc p] ∧ u.xlt.ops = s.xlt.ops ++
        [{ id := s.xlt.nextId + 1, addr := extAddr e line, op := .read 64, why := .line p.space line }] ∧ CountedOne 0x04000400 s u) ∧
    (p.opcode = 0x32 → d.st = 1 ∨ d.st = 2 → d.coarse = false → d.ptrs = [x] →
      (s.dir.holds.filter (sliceOf ·.line == sliceOf line)).length < 16384 →
      ∃ u r, exec (oc.2 lp tc p) s = .next (settleXlt (settleDir u)) ∧ r.lp = lp ∧ r.tc = tc ∧ r.pkt = p ∧ Responded r 0 (grantWord 3 false) u ∧
        dirEnt u p.space line = { st := 3, ptrs := [x] } ∧
        u.dir.holds = s.dir.holds ++ [{ space := p.space, line, agent := x, till := s.clock.clk + reg s 0x04000004 % 2 ^ 14 }] ∧
        HbmSame s u ∧ u.xlt.ops = s.xlt.ops) ∧
    (p.opcode = 0x34 → d.st = 2 ∨ d.st = 3 → d.ptrs = [x] → ∃ u r, exec (oc.2 lp tc p) s = .next (settleXlt (settleDir u)) ∧
      r.lp = lp ∧ r.tc = tc ∧ r.pkt = p ∧ Responded r 0 [] u ∧ dirEnt u p.space line = {} ∧ HbmSame s u ∧ u.xlt.ops = s.xlt.ops) ∧
    (p.opcode = 0x33 → d.st = 3 → d.ptrs = [x] → ∃ u t, exec (oc.2 lp tc p) s = .next (settleXlt (settleDir u)) ∧ TxnIs p.space line t u ∧
      t.phase = 2 ∧ u.xlt.reqs = s.xlt.reqs ++ [newReq s lp tc p] ∧ u.xlt.ops = s.xlt.ops ++
        [{ id := s.xlt.nextId + 1, addr := extAddr e line, op := .write (p.payload.take 64), why := .line p.space line }]) ∧
    (p.opcode = 0x33 → d.st ≠ 4 → d.ptrs.head? ≠ some x → (d.st = 1 → d.coarse = true ∨ d.ptrs ≠ []) → ∃ u r, exec (oc.2 lp tc p) s = .next (settleXlt (settleDir u)) ∧
      r.lp = lp ∧ r.tc = tc ∧ r.pkt = p ∧ Responded r 0 [] u ∧ dirEnt u p.space line = d ∧ CountedOne 0x04000430 s u ∧ u.xlt.ops = s.xlt.ops)) ∧
  (∀ oc ∈ lineRows, ∀ (s : State) (lp tc : Nat) (p : Kmt) (apt x : Nat),
    p.opcode = oc.1 → LineIdle s lp tc p apt x → p.opcode ≤ 0x32 →
    let d := dirEnt s p.space (lineOf p.addr)
    let line := lineOf p.addr
    (d.st = 2 ∨ d.st = 3 → d.ptrs.headD 0 ≠ x → ∃ u t, exec (oc.2 lp tc p) s = .next (settleXlt (settleDir u)) ∧
      OnlyChanges [.xlt, .dir, .rx, .lports, .out, .ctrs, .sw, .freeCtr] s u ∧ TxnIs p.space line t u ∧ t.phase = 1 ∧
      (∃ q, t.probes = [q] ∧ q.agent = d.ptrs.headD 0 ∧ q.op = (if p.opcode = 0x30 then 0x39 else 0x38) ∧ q.ep = (agentAt s apt q.agent).ep ∧
        q.rtx = false ∧ q.delayed = belayed s p.space line q.agent q.op) ∧ dirEnt u p.space line = d ∧ u.xlt.ops = s.xlt.ops) ∧
    (d.st = 1 → d.coarse = false → p.opcode ≠ 0x30 → (d.ptrs.filter (· ≠ x)) ≠ [] → ∃ u t,
      exec (oc.2 lp tc p) s = .next (settleXlt (settleDir u)) ∧ TxnIs p.space line t u ∧ t.phase = 1 ∧
      t.probes.map (·.agent) = d.ptrs.filter (· ≠ x) ∧ (∀ q ∈ t.probes, q.op = 0x38 ∧ q.ep = (agentAt s apt q.agent).ep) ∧
      dirEnt u p.space line = d ∧ u.xlt.ops = s.xlt.ops))

/-- R156, R157, R158, R160, R162: a read of the line grants it with its data and starts a Belay hold; an owner's returned line goes to
the requester and to memory, and the entry names the new owner; an answer that no probe awaits is counted; an entry that has been read
is in the cache from then on; a line whose transaction is over stops being busy. -/
def Obligations.LinesGranted : Prop := ∀ s : State, running s = true →
  (∀ id o t q sp l, s.xlt.ops.find? (·.id == id) = some o → opBlocked s o = false → s.poison = [] → o.op = .read 64 → o.why = .line sp l →
    TxnIs sp l t s → t.phase = 2 → 0x30 ≤ t.req.op → t.req.op ≤ 0x32 → t.req.whom = .req q.id → findReq s q.id = some q → t.req.multi = none →
    mirrorBit s (spaceComp s sp) = false → (s.dir.holds.filter (sliceOf ·.line == sliceOf l)).length < 16384 →
    ∃ u, exec (.hbmResponse id []) s = .next (settleAll (settleXlt (settleDir u))) ∧ ReqGone q.id s u ∧ HbmSame s u ∧
      Responded q 0 (grantWord t.grant true ++ memRead s.mem o.addr 64) u ∧ dirEnt u sp l = t.next ∧
      u.dir.holds = s.dir.holds ++ [{ space := sp, line := l, agent := t.req.agent, till := s.clock.clk + reg s 0x04000004 % 2 ^ 14 }]) ∧
  (∀ lp tc p t q r x ex e, takesPackets s lp = true → p.rsp = true → findProbe s p.tag = some (t, q) → p.src = q.ep → p.opcode = q.op →
    q.op = 0x38 → t.probes = [q] → TxnIs t.space t.line t s → t.data = none → t.pois = false → t.phase = 1 → t.req.op = 0x31 → t.req.agent = x →
    dirEnt s t.space t.line = { st := 3, ptrs := [q.agent] } → q.agent ≠ x → (∀ n, (agentAt s ((aptOf s t.space).getD 64) n).st ≠ 2) →
    p.status = 0 → p.len = 64 → p.payload.length = 64 → t.req.whom = .req r.id → findReq s r.id = some r → t.req.multi = none →
    extAt s t.space t.line = some (ex, e) → e.hbm = true → mirrorBit s (spaceComp s t.space) = false →
    (s.dir.holds.filter (sliceOf ·.line == sliceOf t.line)).length < 16384 →
    ∃ u, exec (.probeResponse lp tc p) s = .next (settleAll (settleDir u)) ∧ ReqGone r.id s u ∧ HbmSame s u ∧
      Responded r 0 (grantWord 3 true ++ p.payload) u ∧ dirEnt u t.space t.line = { st := 3, ptrs := [x] } ∧
      ∃ o, u.xlt.ops = s.xlt.ops ++ [o] ∧ o.op = .write p.payload ∧ o.addr = extAddr e t.line ∧ o.why = .lineWb t.space t.line) ∧
  (∀ lp tc p, takesPackets s lp = true → p.rsp = true → findProbe s p.tag = none →
    ∃ u, exec (.probeResponse lp tc p) s = .next (settleAll u) ∧ OnlyChanges [.rx, .lports, .out, .ctrs] s u ∧ CountedOne 0x04000448 s u) ∧
  (∀ sp l t, TxnIs sp l t s → t.phase = 4 → t.wb = false → t.queue = [] → exec (.lineTransactionDone sp l) s =
    .next (settleAll (settleDir { s with dir.txns := s.dir.txns.filter fun v => !(v.space == sp && v.line == l) }))) ∧
  (∀ sp l t, TxnIs sp l t s → t.phase = 0 → ∃ u, exec (.dirEntryFill sp l false) s = .next (settleAll (settleDir (goLine sp l u))) ∧
    OnlyChanges [.dir, .freeCtr] s u ∧ lkey sp l ∈ u.dir.cache ∧ u.dir.ents = s.dir.ents ∧ u.dir.txns = s.dir.txns ∧
    ∀ k ∈ u.dir.cache, k = lkey sp l ∨ k ∈ s.dir.cache)

/-- R150, R151, R162, R165, R166, R169: CJOIN gives a number that was FREE; CLEAVE, and a port that stays out of service, make it DEAD with
their cause; the reclaim walk frees it; a Belay hold ends; a recall walk leaves its range in I. A probe unanswered for PROBE_TMO is sent once
more, with RTX = 1; when that one is not answered either, its agent is dead. -/
def Obligations.AgentsAndTimers : Prop :=
  (∀ (s : State) (apt n sp : Nat), running s = true → mget s.dir.apts apt = some sp →
    mirrorBit s (spaceComp s sp) = false → s.dir.txns = [] → s.dir.multis = [] →
    (∀ lp tc p, p.opcode = 0x35 → Accepts s lp tc p → aptOf s p.space = some apt → p.space = sp → liveAgent s apt p.src = none →
      (∃ m, m < 512 ∧ (agentAt s apt m).st = 0) → ∃ u m r, exec (.cjoin lp tc p) s = .next (settleXlt u) ∧
        OnlyChanges [.xlt, .dir, .rx, .lports, .out, .sw, .ctrs, .freeCtr] s u ∧ m < 512 ∧ (agentAt s apt m).st = 0 ∧
        agentAt u apt m = { agentAt s apt m with st := 1, ep := p.src } ∧ (∀ k, k < 512 → k ≠ m → agentAt u apt k = agentAt s apt k) ∧
        r.lp = lp ∧ r.tc = tc ∧ r.pkt = p ∧ Responded r 0 (joinWord s apt m) u) ∧
    (∀ lp tc p, p.opcode = 0x36 → Accepts s lp tc p → aptOf s p.space = some apt → p.space = sp → liveAgent s apt p.src = some n → (agentAt s apt n).st = 1 →
      ∃ u r, exec (.cleave lp tc p) s = .next (settleXlt u) ∧ (agentAt u apt n).st = 2 ∧ (agentAt u apt n).cause = 3 ∧
        r.lp = lp ∧ r.tc = tc ∧ r.pkt = p ∧ Responded r 0 [] u ∧ u.flt.log = s.flt.log) ∧
    (∀ l t₀, (agentAt s apt n).st = 1 → (s.lports.map (·.1)).find? (fun l => isLport s l && epValid s l && epId s l == (agentAt s apt n).ep) = some l →
      (lport s l).st ≠ 4 → (lport s l).st ≠ 5 → (lport s l).st ≠ 6 → (lport s l).downAt = some t₀ →
      ∃ u, exec (.deadUsExpiry apt n) s = .next (settleAll (settleDir u)) ∧ (agentAt u apt n).st = 2 ∧ (agentAt u apt n).cause = 1 ∧
        u.clock.clk = max s.clock.clk (t₀ + bits (reg s 0x04000000) 23 16 * 1000)) ∧
    (∀ r, s.dir.reclaims.find? (fun r => r.apt == apt && r.agent == n) = some r → mgetD s.dir.apts apt 0 = sp →
      ∃ u, exec (.reclaimWalkDone apt n) s = .next (settleAll u) ∧ (agentAt u apt n).st = 0 ∧ u.dir.reclaims = s.dir.reclaims.erase r ∧
        u.clock.clk = max s.clock.clk r.due ∧ HbmSame s u) ∧
    (∀ l h, s.dir.holds.find? (fun h => h.space == sp && h.line == l && h.agent == n) = some h →
      ∃ u, exec (.belayHoldExpiry sp l n) s = .next (settleAll (settleDir u)) ∧ u.dir = { s.dir with holds := s.dir.holds.erase h } ∧
        u.clock.clk = max s.clock.clk h.till) ∧
    (∀ id w, s.dir.walks.find? (·.id == id) = some w → w.space = sp → w.region = none → w.ext = none →
      ∃ u, exec (.recallWalkDone id) s = .next (settleAll u) ∧ u.clock.clk = max s.clock.clk w.due ∧
        u.dir.walks = s.dir.walks.filter (·.id != id) ∧ HbmSame s u ∧
        ∀ l, w.lo ≤ l → l < w.hi → l % 64 = 0 → l < 2 ^ 46 → dirEnt u sp l = {})) ∧
  (∀ (s : State) (tag : Nat) (t : Txn) (q : Probe) (l : Nat), running s = true →
    findProbe s tag = some (t, q) → TxnIs t.space t.line t s →
    (q.rtx = false → boundPort s q.ep = some l → live s l = true →
      ∃ u, exec (.probeTmoExpiry tag) s = .next (settleAll u) ∧ OnlyChanges [.clock, .dir, .ctrs, .sw] s u ∧
        u.clock.clk = max s.clock.clk (q.sentAt + bits (reg s 0x04000000) 31 24 * 1000) ∧ CountedOne 0x04000410 s u ∧
        Queued l 1 (probePkt s t.space t.line q true) u ∧
        ∃ v, TxnIs t.space t.line v u ∧ { q with rtx := true, sentAt := u.clock.clk } ∈ v.probes) ∧
    (∀ apt w, q.rtx = true → aptOf s t.space = some apt → mget s.dir.apts apt = some t.space → (agentAt s apt q.agent).st = 1 →
      mirrorBit s (spaceComp s t.space) = false → s.dir.txns = [t] → t.queue = [] → t.probes = [q, w] → w.tag ≠ q.tag → w.agent ≠ q.agent →
      ∃ u, exec (.probeTmoExpiry tag) s = .next (settleAll (settleDir u)) ∧ (agentAt u apt q.agent).st = 2 ∧ (agentAt u apt q.agent).cause = 0 ∧
        u.dir.txns = [{ t with probes := [w] }] ∧ (∃ r, u.dir.reclaims = s.dir.reclaims ++ [r] ∧ r.apt = apt ∧ r.agent = q.agent) ∧
        LastFault 7 1 (atLeast u.clock.clk s) u ∧ HbmSame s u))

/-! ### Commands of the queues (chapters 12 and 13) -/

/-- R344, R346, R422, Table 12-5: a command starts from the head of its queue. One that a check at start turns away is answered with
that status and has no other effect; an EXTENT_REVOKE of a mirrored
composition waits for the Partner's answer to its CONFIG record. A reply goes out on the
port of the command and is saved for a duplicate; a PENDING reply leaves the command running. -/
def Obligations.CommandsStart : Prop :=
  (∀ r ∈ cmdRows, ∀ (s : State) (k q st load : Nat) (c : CmdRec), AtHead s k q r.2.1 r.2.2 c → startCheck (takeStart c s) c = some (st, load) →
    exec (r.1 k q) s = .next (goesOn (reply c st load [] (if st = 0x13 then count 0x08000418 (takeStart c s) else takeStart c s)))) ∧
  (∀ (s : State) (k q i : Nat) (c : CmdRec) (e : Extent), AtHead s k q 0x11 none c → startCheck (takeStart c s) c = none →
    logging s k = true → acking s = true → spaceRow s k (pf c 0 2) false = 0 →
    s.xlt.extents.find? (fun e => e.2.space == pf c 0 2 && e.2.offset == pf c 8 8) = some (i, e) →
    ∃ u, exec (.extentRevoke k q) s = .next (goesOn u) ∧ (queue u k q).busy = some c ∧ (0, (lane s 0).nextLsn, Held.cmd c) ∈ u.flt.held ∧
      HbmSame s u ∧ u.xlt.extents = s.xlt.extents ∧ u.xlt.revokes = s.xlt.revokes) ∧
  (∀ (s : State) (c : CmdRec), OnlyChanges [.cmd, .ctrs] s (takeStart c s) ∧ (queue (takeStart c s) c.comp c.queue).next =
      ((queue s c.comp c.queue).next + 1) % 2 ^ 32 ∧
    (queue (takeStart c s) c.comp c.queue).waiting = (queue s c.comp c.queue).waiting.filter (·.cseq != c.cseq) ∧
    CountedOne 0x08000428 s (takeStart c s)) ∧
  (∀ (s : State) (c : CmdRec) (st load : Nat) (ps : List Byte), OnlyChanges [.cmd, .sw] s (reply c st load ps s) ∧
    (∃ f, (reply c st load ps s).sw.voq.getLast? = some f ∧ f.legs = [{ out := outPort (c.lp / 8), lp := c.lp }] ∧ f.tc = 0 ∧
      ∃ g, f.cargo = .reply g ∧ g.bytes = replyBytes s c st load ps ∧ g.dstMac = c.frame.srcMac) ∧
    (queue (reply c st load ps s) c.comp c.queue).saved.getLast? = some { cseq := c.cseq, opcode := c.opcode, status := st, load, params := ps }) ∧
  (∀ (s : State) (c : CmdRec) (what : LongFor) (ps : List Byte), OnlyChanges [.cmd, .sw] s (applyRes c (.pending what ps) s) ∧
    (applyRes c (.pending what ps) s).cmd.longs = s.cmd.longs ++ [{ cmd := c, what }] ∧
    c.cseq ∈ (queue (applyRes c (.pending what ps) s) c.comp c.queue).running)

/-- R337 to R345, Table 12-3: a command frame of an entitled source whose sequence number has a place in its queue waits there; one
whose path is not up, or that no source entry lets in, is counted and dropped. A producer that waited on a ring writes its entry when
the ring has space again. -/
def Obligations.CommandsTaken : Prop := ∀ s : State,
  (∀ lp f i, running s = true → s.dev.devState ≠ .bivouac → isLport s lp = true → live s lp = true → modeOf s lp = 4 → addressed s lp f = true →
    frameOk f = true → hostRdy s = true → (List.range 256).find? (srcMatch s lp f) = some i →
    let c := cmdOf f lp (bit (srcWord s i 0) 27)
    let q := queue s c.comp c.queue
    (c.comp = bits (srcWord s i 0) 5 0 → bit (bits (srcWord s i 0) 19 16) c.queue = true → compLive s c.comp = true → conf s c.comp = false →
      q.depth ≠ 0 → cseqDiff c.cseq (oldest q) < q.depth → 0 ≤ cseqDiff c.cseq q.next → (∀ w ∈ q.waiting, w.cseq ≠ c.cseq) →
      ∃ u, exec (.cmdIntake lp f) s = .next (settleQueues (intake u) u) ∧ OnlyChanges [.cmd] s u ∧
        (queue u c.comp c.queue).waiting = q.waiting ++ [c]) ∧
    (c.comp ≠ bits (srcWord s i 0) 5 0 → exec (.cmdIntake lp f) s = .next (sendReply c 0x13 0 [] (count 0x08000418 s)))) ∧
  (∀ lp f, running s = true → s.dev.devState ≠ .bivouac → isLport s lp = true → live s lp = true → modeOf s lp = 4 → addressed s lp f = true →
    (frameOk f = false → exec (.cmdIntake lp f) s = .next (count 0x08000400 s)) ∧
    (frameOk f = true → hostRdy s = false → exec (.cmdIntake lp f) s = .next (count 0x08000408 s)) ∧
    (frameOk f = true → hostRdy s = true → (∀ i, i < 256 → srcMatch s lp f i = false) → exec (.cmdIntake lp f) s = .next (count 0x08000410 s))) ∧
  (∀ k n r e, running s = true → findRing s k n = some r → r.comp = k → r.num = n → r.waiting = [e] → ringSpace r = true → e.desc = 0 → e.deadline = 0 →
    ∃ u v, exec (.ringProducerResume k n) s = .next (settleAll u) ∧ findRing u k n = some v ∧ v.pi = r.pi + 1 ∧ v.waiting = [] ∧
      (mget v.entries r.pi).map (·.type) = some e.type ∧ HbmSame s u)

/-- R346, R351, R353, R389, R410, Table 12-4: NOP, REG_READ, REG_WRITE of one plain word, STATS_READ, USAGE_READ and RESUME. -/
def Obligations.PlainCommands : Prop := ∀ (s : State) (k q : Nat) (c : CmdRec),
  (Starts s k q 0x01 none c → Done c 0 [] (takeStart c s) (exec (.nop k q) s)) ∧
  (Starts s k q 0x02 none c → pf c 0 4 + 4 * pf c 4 4 ≤ windowsEnd → ∃ u ws, Done c 0 ((ws.map (le 4)).flatten) u (exec (.regRead k q) s) ∧
    (ws, u) = readWords .cmd false (pf c 4 4) (pf c 0 4) (takeStart c s)) ∧
  (Starts s k q 0x02 none c → windowsEnd < pf c 0 4 + 4 * pf c 4 4 → Done c 0x12 [] (takeStart c s) (exec (.regRead k q) s)) ∧
  (Starts s k q 0x03 none c → pf c 4 4 = 1 → isM (pf c 0 4) = true → pf c 0 4 % 4 = 0 → pf c 0 4 < 0x0D000000 →
    Done c 0x13 [] (settlePair (takeStart c s)) (exec (.regWrite k q) s)) ∧
  (Starts s k q 0x03 none c → pf c 4 4 = 1 → pf c 0 4 = 0x0800000C → Done c 0 [] (settlePair (setReg 0x0800000C (pf c 8 4 % 4096) (takeStart c s)))
    (exec (.regWrite k q) s)) ∧
  (Starts s k q 0x70 none c → pb c 0 = 5 → pf c 2 2 = 0 → Done c 0 ((List.range 16).map fun n =>
    le 8 (cmdWord (takeStart c s) (0x20000 + 64 * k + 4 * n))).flatten (takeStart c s) (exec (.statsRead k q) s)) ∧
  (Starts s k q 0x70 none c → pb c 0 = 1 → c.oper = false → Done c 0x13 [] (takeStart c s) (exec (.statsRead k q) s)) ∧
  (Starts s k q 0x72 none c → c.oper = true ∨ pb c 1 = k → pb c 1 = 0 ∨ (comp s (pb c 1)).made = true →
    Done c 0 (usageReply (takeStart c s) (pb c 1)) (useFree (takeStart c s)) (exec (.usageRead k q) s)) ∧
  (Starts s k q 0x72 none c → c.oper = false → pb c 1 ≠ k → Done c 0x13 [] (takeStart c s) (exec (.usageRead k q) s)) ∧
  (Starts s k q 0x61 none c → s.dev.devState = .quiesced → (∀ l ∈ s.cmd.longs, l.what ≠ .quiesce) →
    Done c 0 [] (setDevState .full (takeStart c s)) (exec (.resume k q) s)) ∧
  (Starts s k q 0x61 none c → s.dev.devState = .full → Done c 0 [] (takeStart c s) (exec (.resume k q) s))

/-- R119, R120, R351, R352: SPACE_CREATE takes the lowest free number, SPACE_DESTROY an empty space of the composition's own, JOB_CREATE
stores the job's pairs, JOB_DESTROY removes a job that nothing names. -/
def Obligations.SpacesAndJobs : Prop := ∀ (s : State) (k q : Nat) (c : CmdRec),
  (∀ x, Starts s k q 0x10 (some 1) c → x < 1024 → mget s.xlt.spaces x = none → (∀ y, y < x → (mget s.xlt.spaces y).isSome) →
    ∃ u, Done c 0 (mapReply x 0) u (exec (.spaceCreate k q) s) ∧ OnlyChanges [.xlt] (takeStart c s) u ∧
      u.xlt.spaces = mset s.xlt.spaces x { comp := k, shadow := false } ∧ u.xlt.extents = s.xlt.extents) ∧
  (Starts s k q 0x10 (some 1) c → (∀ y, y < 1024 → (mget s.xlt.spaces y).isSome) →
    Done c 0x15 [] (quotaRej (takeStart c s)) (exec (.spaceCreate k q) s)) ∧
  (Starts s k q 0x10 (some 2) c → spaceRow s k (pf c 2 2) false = 0 → (∀ e ∈ s.xlt.extents, e.2.space ≠ pf c 2 2) →
    (∀ r ∈ s.dir.regions, r.2.space ≠ pf c 2 2) → (∀ r ∈ s.cmd.rings, r.space ≠ pf c 2 2) → s.sw.capture = none →
    ∃ u, Done c 0 (mapReply (pf c 2 2) 0) u (exec (.spaceDestroy k q) s) ∧ OnlyChanges [.xlt] (takeStart c s) u ∧
      u.xlt.spaces = mdel s.xlt.spaces (pf c 2 2)) ∧
  (Starts s k q 0x10 (some 2) c → spaceRow s k (pf c 2 2) false ≠ 0 →
    Done c (spaceRow s k (pf c 2 2) false) [] (takeStart c s) (exec (.spaceDestroy k q) s)) ∧
  (Starts s k q 0x12 none c → pf c 0 2 ≠ 0xFFFF → mget s.xlt.jobs (pf c 0 2) = none →
    (∀ p ∈ jobPairs c, p.2 ≠ 0 → spaceRow s k p.1 false = 0) → ∃ u, Done c 0 [] u (exec (.jobCreate k q) s) ∧
      OnlyChanges [.xlt] (takeStart c s) u ∧ u.xlt.jobs = mset s.xlt.jobs (pf c 0 2) { comp := k, pairs := jobPairs c, shadow := false }) ∧
  (∀ b, Starts s k q 0x13 none c → mget s.xlt.jobs (pf c 0 2) = some b → b.shadow = false → b.comp = k → jobNamed s (pf c 0 2) = false →
    ∃ u, Done c 0 [] u (exec (.jobDestroy k q) s) ∧ OnlyChanges [.xlt] (takeStart c s) u ∧ u.xlt.jobs = mdel s.xlt.jobs (pf c 0 2)) ∧
  (∀ b, Starts s k q 0x13 none c → mget s.xlt.jobs (pf c 0 2) = some b → b.shadow = false → b.comp ≠ k →
    Done c 0x13 [] (takeStart c s) (exec (.jobDestroy k q) s))

/-- R119, R128, R143, R146, R149, R314, R316, R317, R352, R355: an HBM extent, a COHERENT region's directory and a result ring get pages of
their composition that read zero; a tray extent is charged; regions and rings are listed; a removal and a revocation are answered
PENDING and begin. -/
def Obligations.ObjectsMapped : Prop :=
  (∀ (s : State) (k q : Nat) (c : CmdRec), spaceRow s k (pf c 2 2) false = 0 →
    let x := pf c 2 2
    let off := pf c 8 8
    let size := 2 ^ pb c 4
    let n := size / pageSize
    let fits := off % size = 0 ∧ pf c 16 8 % size = 0 ∧ hitsExtent s x off size = false ∧ hitsRing s x off size = false ∧ 21 ≤ pb c 4 ∧ pb c 4 ≤ 30
    (∀ a, Starts s k q 0x10 (some 3) c → fits → bit (pb c 1) 0 = true → (∃ i, i < 65536 ∧ mget s.xlt.extents i = none) →
      chooseRun (useFree s) n none = some a → hbmFits (comp s k) (runPerCrest a n) = true →
      ∃ u i, Done c 0 (mapReply i 0) u (exec (.extentMap k q) s) ∧ OnlyChanges [.xlt, .mem, .poison, .pages, .comps, .freeCtr] (takeStart c s) u ∧
        mget s.xlt.extents i = none ∧ u.xlt.extents = mset s.xlt.extents i { space := x, offset := off, size, hbm := true, base := a } ∧
        Zeroed (a * pageSize) (n * pageSize) s u ∧ PagesOf k a n u) ∧
    (Starts s k q 0x10 (some 3) c → fits → bit (pb c 1) 0 = false → trayValid s (pb c 6) = true → (∃ i, i < 65536 ∧ mget s.xlt.extents i = none) →
      (comp s k).trayUse + n ≤ (comp s k).trayQ * 512 →
      ∃ u i, Done c 0 (mapReply i 0) u (exec (.extentMap k q) s) ∧ OnlyChanges [.xlt, .comps, .freeCtr] (takeStart c s) u ∧
        mget s.xlt.extents i = none ∧ u.xlt.extents = mset s.xlt.extents i { space := x, offset := off, size, hbm := false, base := pf c 16 8, tray := pb c 6 } ∧
        (comp u k).trayUse = (comp s k).trayUse + n) ∧
    (Starts s k q 0x10 (some 4) c → regionBad s c = false → pb c 5 ≠ 0 → (∃ i, i < 4096 ∧ mget s.dir.regions i = none) →
      ∃ u i, Done c 0 (mapReply i 0) u (exec (.regionCreate k q) s) ∧ OnlyChanges [.dir, .freeCtr] (takeStart c s) u ∧ mget s.dir.regions i = none ∧
        u.dir.regions = mset s.dir.regions i { space := x, base := off, size, mode := pb c 5, conf := bit (pb c 1) 1, cwEn := bit (pb c 1) 2
                                               cwAddr := if bit (pb c 1) 2 then pf c 24 8 else 0 }) ∧
    (∀ a, Starts s k q 0x10 (some 4) c → regionBad s c = false → pb c 5 = 0 → (∃ i, i < 4096 ∧ mget s.dir.regions i = none) →
      chooseRun (useFree (useFree s)) (4 * (size / 2 ^ 25)) none = some a → hbmFits (comp s k) (runPerCrest a (4 * (size / 2 ^ 25))) = true →
      ∃ u i apt, Done c 0 (mapReply i apt) u (exec (.regionCreate k q) s) ∧ OnlyChanges [.dir, .mem, .poison, .pages, .comps, .freeCtr] (takeStart c s) u ∧
        (mget u.dir.regions i).map (fun r => (r.space, r.base, r.size, r.mode, r.apt)) = some (x, off, size, 0, apt) ∧ mget u.dir.apts apt = some x ∧
        Zeroed (a * pageSize) (4 * (size / 2 ^ 25) * pageSize) s u ∧ u.dir.ents = s.dir.ents) ∧
    (∀ i g, Starts s k q 0x10 (some 5) c → basedAt s x off = some (i, g) → g.removing = false → g.mode ≠ 0 →
      ∃ u, Runs c (.recall i) (mapReply i 0) u (exec (.regionRemove k q) s) ∧ OnlyChanges [.dir] (takeStart c s) u ∧
        u.dir.regions = mset s.dir.regions i { g with removing := true }) ∧
    (∀ a m, Starts s k q 0x10 (some 6) c → m = ringPages (pb c 4) (pb c 7) → off % pageSize = 0 → off + m * pageSize ≤ 2 ^ 46 →
      findRing s k (pf c 32 2) = none → hitsExtent s x off (m * pageSize) = false → hitsRegion s x off (m * pageSize) = false →
      hitsRing s x off (m * pageSize) = false → s.cmd.rings.length < 4096 → chooseRun s m none = some a → hbmFits (comp s k) (runPerCrest a m) = true →
      ∃ u, Done c 0 (mapReply (pf c 32 2) 0) u (exec (.ringCreate k q) s) ∧ OnlyChanges [.cmd, .mem, .poison, .pages, .comps, .freeCtr] (takeStart c s) u ∧
        u.cmd.rings = s.cmd.rings ++ [{ comp := k, num := pf c 32 2, esize := pb c 4, nent := pb c 7, space := x, offset := off, page := a, npages := m }] ∧
        Zeroed (a * pageSize) (m * pageSize) s u ∧ PagesOf k a m u)) ∧
  (∀ (s : State) (k q : Nat) (c : CmdRec),
    (∀ r, Starts s k q 0x10 (some 7) c → findRing s k (pf c 32 2) = some r → r.comp = k → r.num = pf c 32 2 → ringNamed s k r.num = false → r.waiting = [] →
      ∃ u, Done c 0 (mapReply r.num 0) u (exec (.ringDestroy k q) s) ∧ OnlyChanges [.cmd, .pages, .comps] (takeStart c s) u ∧
        findRing u k r.num = none ∧ (∀ p ∈ u.pages, p ∈ s.pages ∧ (p.1 < r.page ∨ r.page + r.npages ≤ p.1))) ∧
    (∀ i e, Starts s k q 0x11 none c → spaceRow s k (pf c 0 2) false = 0 →
      s.xlt.extents.find? (fun e => e.2.space == pf c 0 2 && e.2.offset == pf c 8 8) = some (i, e) → mget s.xlt.extents i = some e → e.draining = false →
      (∀ r ∈ s.dir.regions, r.2.space ≠ e.space) → ∃ u, Runs c (.revoke i) [] u (exec (.extentRevoke k q) s) ∧
        OnlyChanges [.xlt] (takeStart c s) u ∧ u.xlt.extents = mset s.xlt.extents i { e with draining := true } ∧
        u.xlt.revokes = s.xlt.revokes ++ [{ ext := i, at_ := s.clock.clk, walking := false }]) ∧
    (∀ i g, Starts s k q 0x43 none c → spaceRow s k (pf c 0 2) false = 0 → basedAt s (pf c 0 2) (pf c 8 8) = some (i, g) → g.mode = 1 →
      ∃ u, exec (.regionPublish k q) s = .next (goesOn u) ∧ OnlyChanges [.xlt, .dir, .cmd, .ctrs] s u ∧ (queue u k q).busy = some c ∧
        u.dir.pubs = s.dir.pubs ++ [{ id := s.xlt.nextId, region := i, cairn := pf c 16 8, who := .cmd c }]))

/-- R73, R409, R411, R436, R440: QUIESCE stops new work and runs until all is quiet or the drain time has passed, when what is still
in flight is aborted; PORT_REHOME takes a KMT port out of service without loss; SECOND_START enters SECONDING toward a Leader that has
been heard, SECOND_PROMOTE runs until the takeover. -/
def Obligations.DeviceCommands : Prop := ∀ (s : State) (k q : Nat) (c : CmdRec),
  (Starts s k q 0x60 none c → s.dev.devState = .full → s.eng.descs = [] → s.cards = [] → ∃ u, Runs c .quiesce [] u (exec (.quiesce k q) s) ∧
    OnlyChanges [.dev, .cmd] (takeStart c s) u ∧ u.dev.devState = .quiesced ∧ u.cmd.queues = (takeStart c s).cmd.queues ∧
    u.dev.drainAt = some (s.clock.clk + if pf c 0 4 = 0 then engDrainNs s else pf c 0 4 * 1000)) ∧
  (Starts s k q 0x60 none c → s.dev.devState = .quiesced → Runs c .now [] (takeStart c s) (exec (.quiesce k q) s)) ∧
  (∀ t, running s = true → s.dev.drainAt = some t → s.eng.descs = [] → s.haul.descs = [] → (∀ r ∈ s.xlt.trays, ∃ i, r.why = .req i) →
    ∃ u, exec .quiesceDrainExpiry s = .next (settleAll u) ∧ u.clock.clk = max s.clock.clk t ∧ u.dev.drainAt = none ∧ u.xlt.reqs = [] ∧
      u.xlt.trays = [] ∧ u.xlt.ops = s.xlt.ops ∧ HbmSame s u) ∧
  (Starts s k q 0x62 none c → isLport s (pf c 0 2) = true → isKmt s (pf c 0 2) = true → 1 ≤ modeOf s (pf c 0 2) → modeOf s (pf c 0 2) ≤ 3 →
    noTrayOn s (pf c 0 2) → s.sw.capture = none → ∃ u, Done c 0 [] u (exec (.portRehome k q) s) ∧ (lport u (pf c 0 2)).st = 6 ∧
      (lport u (pf c 0 2)).rehomeAt = s.clock.clk ∧ HbmSame s u ∧ u.xlt = s.xlt) ∧
  (∀ node at_, Starts s k q 0x63 none c → s.dev.devState = .full → mayStart s = true → pf c 4 4 ≠ 0 → node < 2 ^ 64 →
    s.flt.heard.find? (fun h => h.1 == pf c 0 4 && decide (s.clock.clk ≤ h.2.2 + 15000)) = some (pf c 0 4, node, at_) →
    ∃ u, Done c 0 [] u (exec (.secondStart k q) s) ∧ OnlyChanges [.dev, .regs, .flt, .cmd, .eng] (takeStart c s) u ∧ u.dev.devState = .seconding ∧
      partnerNode u = node ∧ u.flt.second = { phase := 1, leader := pf c 0 4, target := pf c 4 4 } ∧ u.flt.paired = false ∧
      u.flt.lanes = List.replicate 4 {}) ∧
  (Starts s k q 0x64 none c → s.dev.devState = .seconding → (∀ l ∈ s.cmd.longs, l.what ≠ .promote) →
    ∃ u, Runs c .promote [] u (exec (.secondPromote k q) s) ∧ OnlyChanges [.flt] (takeStart c s) u ∧ u.flt.second.promoteAt = s.clock.clk)

/-- R354, R366 to R368, R371, R392: TENANT_CREATE makes a composition ACTIVE with its quotas and queues; TENANT_RESET and TENANT_REMOVE
end what it has begun and run until its units and objects are gone; the removal's scrub leaves its pages zero and the composition
NONE. CAPTURE_CTL starts, stops and releases the capture ring of its composition. -/
def Obligations.CompositionCommands : Prop := ∀ (s : State) (k q : Nat) (c : CmdRec),
  (Starts s k q 0x50 none c → pb c 0 ≠ 0 → pb c 0 ≠ k → (comp s (pb c 0)).st = 0 → pf c 4 2 ≠ 0 → (∀ i, i < 4 → pf c (4 + 2 * i) 2 ≤ 4096) →
    pb c 1 < 2 → quotaBad s c = false → ∃ u, Done c 0 [] u (exec (.tenantCreate k q) s) ∧ OnlyChanges [.comps, .cmd, .sec] (takeStart c s) u ∧
      comp u (pb c 0) = { st := 1, conf := pb c 1 == 1, hbmQ := (List.range 4).map fun i => pf c (16 + 4 * i) 4, trayQ := pf c 32 4, made := true } ∧
      (∀ j, j ≠ pb c 0 → comp u j = comp s j) ∧ (∀ i, i < 4 → queue u (pb c 0) i = { depth := pf c (4 + 2 * i) 2 }) ∧
      u.sec.confSeen = (s.sec.confSeen || pb c 1 == 1)) ∧
  (Starts s k q 0x52 none c → pb c 0 ≠ 0 → pb c 0 ≠ k → (comp s (pb c 0)).st = 1 → s.cards = [] → s.haul = {} → unitsOf s (pb c 0) = [] →
    (∀ l ∈ s.cmd.longs, l.cmd.comp ≠ pb c 0) → ∃ u, Runs c (.reset (pb c 0)) [] u (exec (.tenantReset k q) s) ∧ (comp u (pb c 0)).st = 2 ∧
      (∀ i, i < 4 → (queue u (pb c 0) i).waiting = [] ∧ (queue u (pb c 0) i).depth = (queue s (pb c 0) i).depth) ∧ HbmSame s u) ∧
  (Starts s k q 0x51 none c → pb c 0 ≠ 0 → pb c 0 ≠ k → (comp s (pb c 0)).st = 1 → s.cards = [] → s.haul = {} → unitsOf s (pb c 0) = [] → kgens s (pb c 0) = [] →
    (∀ x ∈ s.xlt.spaces, x.2.comp ≠ pb c 0) → s.eng.tables = [] → (∀ r ∈ s.cmd.rings, r.comp ≠ pb c 0) → s.sw.capture = none →
    (∀ l ∈ s.cmd.longs, l.cmd.comp ≠ pb c 0 ∧ l.what ≠ .reset (pb c 0)) →
    ∃ u, Runs c (.remove (pb c 0)) [] u (exec (.tenantRemove k q) s) ∧ (comp u (pb c 0)).st = 3 ∧
      (comp u (pb c 0)).remPages = (s.pages.filter (·.2.comp == pb c 0)).map (·.1) ∧ (∀ i, i < 4 → queue u (pb c 0) i = {}) ∧
      (∀ j ∈ u.xlt.jobs, j ∈ s.xlt.jobs ∧ j.2.comp ≠ pb c 0) ∧ HbmSame s u) ∧
  (∀ j t, running s = true → (∀ e ∈ s.comps, e.1 ≠ j → e.2.st ≠ 2 ∧ e.2.st ≠ 3) → (comp s j).st = 3 → (comp s j).scrubAt = some t →
    ∃ u, exec (.tenantScrubDone j) s = .next (finishAll (.remove j) 0 [] u) ∧ OnlyChanges [.clock, .mem, .poison, .comps, .ctrs] s u ∧
      u.clock.clk = max s.clock.clk (t + removalNs s j) ∧ (comp u j).st = 0 ∧ (comp u j).hbmQ = ({} : Comp).hbmQ ∧
      (∀ p ∈ (comp s j).remPages, mget s.pages p = none → ∀ b, p * pageSize ≤ b → b < (p + 1) * pageSize → memByte u.mem b = 0) ∧
      (∀ b, (∀ p ∈ (comp s j).remPages, ¬(p * pageSize ≤ b ∧ b < (p + 1) * pageSize)) → memByte u.mem b = memByte s.mem b)) ∧
  (∀ a, Starts s k q 0x71 (some 1) c → spaceRow s k (pf c 8 2) false = 0 → s.sw.capture = none → pf c 16 8 + 2 ^ pb c 10 ≤ 2 ^ 46 →
    hitsExtent s (pf c 8 2) (pf c 16 8) (2 ^ pb c 10) = false → hitsRegion s (pf c 8 2) (pf c 16 8) (2 ^ pb c 10) = false →
    hitsRing s (pf c 8 2) (pf c 16 8) (2 ^ pb c 10) = false → chooseRun s (2 ^ pb c 10 / pageSize) none = some a →
    hbmFits (comp s k) (runPerCrest a (2 ^ pb c 10 / pageSize)) = true → ∃ u, Done c 0 [] u (exec (.captureStart k q) s) ∧
      OnlyChanges [.sw, .regs, .mem, .poison, .pages, .comps, .freeCtr] (takeStart c s) u ∧ u.sw.capIdx = 0 ∧ u.sw.capSeq = 0 ∧
      (u.sw.capture.map fun r => (r.space, r.offset, r.size, r.comp)) = some (pf c 8 2, pf c 16 8, 2 ^ pb c 10, k) ∧
      PagesOf k a (2 ^ pb c 10 / pageSize) u) ∧
  (∀ r, Starts s k q 0x71 (some 2) c → s.sw.capture = some r → r.comp = k → ∃ u, Done c 0 [] u (exec (.captureStop k q) s) ∧
    OnlyChanges [.regs] (takeStart c s) u ∧ bits (reg u 0x0B000000) 2 0 = 0 ∧ ∀ a, a ≠ 0x0B000000 → reg u a = reg s a) ∧
  (∀ r, Starts s k q 0x71 (some 3) c → s.sw.capture = some r → r.comp = k → ∃ u, Done c 0 [] u (exec (.captureRelease k q) s) ∧
    OnlyChanges [.regs, .sw, .pages, .comps] (takeStart c s) u ∧ u.sw.capture = none ∧ (∀ p ∈ u.pages, p ∈ s.pages ∧ p.1 ∉ r.pages))

/-! ### Engines, Haul and Route Cards (chapters 6 to 11) -/

/-- R178 to R180, R295, R348: ROLE_ASSIGN with DRAIN leaves the unit CHANGING for DRAIN_US, when what is left ends; then the unit is
scrubbed under a new generation, and takes its role. -/
def Obligations.RolesAssigned : Prop := ∀ s : State,
  (∀ k q c K n, Starts s k q 0x21 none c → n = pb c 0 → pb c 1 = (if K = .haul then 1 else 0) → n < (if K = .haul then 64 else 128) →
    unitThere s (ukey K n) = true → (eunit s (ukey K n)).parent = none → (eunit s (ukey K n)).role = 0 ∨ (eunit s (ukey K n)).comp = k →
    (eunit s (ukey K n)).st = 0 → pb c 3 = 1 → ∃ u, Runs c (.role K n) [] u (exec (.roleAssign k q) s) ∧ OnlyChanges [.eng] (takeStart c s) u ∧
    eunit u (ukey K n) = { eunit s (ukey K n) with st := 1, change := some { role := pb c 2, comp := if pb c 2 = 0 then 0 else k, status := 0x41
                                                                             drainAt := some (s.clock.clk + engDrainNs s) } }) ∧
  (∀ n d ch t, running s = true → n < 128 → (eunit s n).change = some ch → ch.drainAt = some t → ch.status = 0x41 → activeOn s n = [d] → Endable s d →
    ∃ u, exec (.roleDrainTimeout .eng n) s = .next (settleAll (settleEng u)) ∧ EndedWith s d 0x41 u ∧ u.clock.clk = max s.clock.clk t) ∧
  (∀ K n, running s = true → (eunit s (ukey K n)).st = 1 → (eunit s (ukey K n)).rstBusy = false → unitIdle s (ukey K n) = true →
    ∃ u, exec (.roleScrubStart K n) s = .next (settleAll u) ∧ OnlyChanges [.eng, .haul] s u ∧
    eunit u (ukey K n) = { eunit s (ukey K n) with gen := genUp (eunit s (ukey K n)).gen, st := 2, scrubAt := s.clock.clk }) ∧
  (∀ K n ch, running s = true → (eunit s (ukey K n)).st = 2 → (eunit s (ukey K n)).rstBusy = false → (eunit s (ukey K n)).change = some ch →
    ∃ u, exec (.roleScrubDone K n) s = .next (settleAll (stepQ (settleTenants (finishAll (.role K n) 0 (le 2 (eunit s (ukey K n)).gen) u)))) ∧
    OnlyChanges [.clock, .eng, .ctrs] s u ∧ u.clock.clk = max s.clock.clk ((eunit s (ukey K n)).scrubAt + scrubNs (ukey K n)) ∧
    eunit u (ukey K n) = { eunit s (ukey K n) with role := ch.role, comp := ch.comp, st := 0, change := none })

/-- R201 to R204, R306, R310: a descriptor whose deadline has passed ends with DEADLINE_MISSED and a record; RESET of a unit resets its
outermost Rope under a new generation until the reset ends; a tile or a Haul engine with an uncorrectable SRAM error is FAILED, with a
record, and the work that it carried alone ends with INTERNAL_FAULT. -/
def Obligations.UnitsFail : Prop := ∀ s : State,
  (∀ n d nd, running s = true → d.unit < 128 → (∀ sh ∈ d.shares, sh.tile < 64) → d.work = .node nd → Endable s d →
    (activeOn s n).filter (fun d => d.deadline != 0 && decide (d.deadline < s.clock.tb)) = [d] →
    ∃ u, exec (.engDeadlineCheck n) s = .next u ∧ EndedWith s d 0x40 u ∧ LastFault 6 1 s u) ∧
  (∀ n top v, cmdPathUp s = true → bit v.toNat 31 = true → topOf s n = top → unitThere s top = true → activeOn s top = [] →
    let after : State → Prop := fun u => OnlyChanges [.eng, .haul] s u ∧ eunit u top = { eunit s top with
      gen := genUp (eunit s top).gen, rstBusy := true, rstAt := s.clock.clk }
    (n < 64 → ∃ u, exec (.engCtlReset .cmd n v) s = .next (afterWrite (settleEng u)) ∧ after u) ∧
    (64 ≤ n → n < 128 → ∃ u, exec (.engRopeCtlReset .cmd n v) s = .next (afterWrite (settleEng u)) ∧ after u)) ∧
  (∀ n top v, cmdPathUp s = true → bit v.toNat 31 = true → topOf s (128 + n) = top → unitThere s top = true → haulOn s (top - 128) = [] →
    let after : State → Prop := fun u => OnlyChanges [.eng, .haul] s u ∧ eunit u top = { eunit s top with
      gen := genUp (eunit s top).gen, rstBusy := true, rstAt := s.clock.clk }
    (n < 32 → ∃ u, exec (.haulCtlReset .cmd n v) s = .next (afterWrite (settleCards u)) ∧ after u) ∧
    (32 ≤ n → n < 64 → ∃ u, exec (.haulRopeCtlReset .cmd n v) s = .next (afterWrite (settleCards u)) ∧ after u)) ∧
  (∀ n clean, running s = true → n < 128 → (eunit s n).rstBusy = true → ∃ u, exec (.engResetDone n clean) s = .next u ∧ OnlyChanges [.eng] s u ∧
    (eunit u n).rstBusy = false ∧ (clean = true → ∀ t ∈ tilesUnder s n, (eunit u t).failed = false)) ∧
  (∀ n clean top, running s = true → topOf s (128 + n) = top → (eunit s top).rstBusy = true → ∃ u, exec (.haulResetDone n clean) s = .next u ∧
    OnlyChanges [.eng, .clock] s u ∧ (eunit u top).rstBusy = false ∧ u.clock.clk = max s.clock.clk ((eunit s top).rstAt + scrubNs top) ∧
    (clean = true → ∀ t ∈ tilesUnder s top, (eunit u t).failed = false)) ∧
  (∀ n, running s = true → n < 64 → activeOn s (topOf s n) = [] → ∃ u, exec (.sramUe n) s = .next u ∧ (eunit u n).failed = true ∧
    LastFault 4 1 s u ∧ HbmSame s u) ∧
  (∀ n d, running s = true → n < 64 → activeOn s (topOf s n) = [d] → Endable s d → (∃ sh ∈ d.shares, sh.tile = n ∧ sh.dead = false) →
    (∀ sh ∈ d.shares, sh.dead = false → sh.tile = n) → ∃ u, exec (.sramUe n) s = .next (settleEng u) ∧ EndedWith s d 0x60 u ∧
    (eunit u n).failed = true ∧ LastFault 4 1 s u) ∧
  (∀ h, running s = true → h < 32 → haulOn s (topOf s (128 + h) - 128) = [] → ∃ u, exec (.haulUe h) s = .next (settleCards u) ∧
    (eunit u (128 + h)).failed = true ∧ LastFault 4 2 s u ∧ HbmSame s u)

/-- R189, R208, R211, R212, R221, R222, R235, R236, R239, R255, R257, Table 7-9: a COLL_POST that passes Table 6-8 waits for the read of
its member table; once it is in, the descriptor is active and the command is answered OK, or BAD_PARAM where the table breaks R212. A stale
role generation is ROLE_STALE. A GATHER_POST on a current table makes its batch active under that version and is answered OK, and BAD_ADDR
without one. TABLE_PUBLISH waits for its record, and a record that passes makes its version current. The OK for a trailer ends its batch. -/
def Obligations.WorkPosted : Prop :=
  (∀ s : State,
    (∀ k q c, Starts s k q 0x30 none c → (descRow s c.params).status = 0 → collBad s (newDesc s c.params 1024 (.node {})) = false →
      s.dir.regions = [] → ∃ u id, exec (.collPost k q) s = .next (stepQ u) ∧ (queue u k q).busy = some c ∧ mget u.eng.reads id = some (.table c) ∧
      u.eng.descs = s.eng.descs ∧ HbmSame s u) ∧
    (∀ k q c, Starts s k q 0x30 none c → s.dev.devState = .full → compLive s k = true → pb c 2 < 128 → unitThere s (pb c 2) = true →
      (eunit s (pb c 2)).gen ≠ pf c 4 2 → ∃ u, exec (.collPost k q) s = .next (stepQ (reply c 0x30 0 [] u)) ∧
      OnlyChanges [.ctrs] (takeStart c s) u ∧ CountedOne (unitCtr (pb c 2) 0x110 0x48) (takeStart c s) u) ∧
    (∀ id c b, mget s.eng.reads id = some (.table c) → readDone s id = some (0, b) → (descRow s c.params).status = 0 →
      let d := newDesc s c.params 1024 (.node {})
      let es := (List.range d.nmemb).map fun k => slice b (16 * k) 16
      mirrorBit s d.comp = false → collBad s d = false →
      (tableBad d es = false → ∃ u, exec (.memberTableReadDone id) s = .next (stepQ (advanceNode d.id (endPost c 0 0 u))) ∧ HbmSame s u ∧
        u.eng.descs = s.eng.descs ++ [{ d with work := .node { members := es.map memberOf, segs := d.shares.map fun _ => 0 } }]) ∧
      (tableBad d es = true → ∃ u, exec (.memberTableReadDone id) s = .next (stepQ (endPost c 0x11 0 u)) ∧ HbmSame s u ∧
        u.eng.descs = s.eng.descs))) ∧
  (∀ s : State,
    (∀ k q c, Starts s k q 0x31 none c → (descRow s c.params).status = 0 →
      let d := newDesc s c.params 1 (.batch { table := 0, version := 0 })
      mirrorBit s d.comp = false →
      (∀ v, ownTable s d.gTable d.comp = true → (gtable s d.gTable).bind curVer = some v → gatherBad d = false → d.inFmt = recFmt v.bytes →
        gatherOutOk d.inFmt d.outFmt = true → d.count ≤ 2 ^ 24 → ∃ u, exec (.gatherPost k q) s = .next (stepQ (reply c 0 0 [] (settleEng u))) ∧
        u.eng.descs = s.eng.descs ++ [batchDesc d v.version] ∧ HbmSame s u) ∧
      (ownTable s d.gTable d.comp = false → exec (.gatherPost k q) s = .next (stepQ (reply c 0x12 0 [] (takeStart c s))))) ∧
    (∀ k q c, Starts s k q 0x42 none c → s.dir.regions = [] → ∃ u id n, exec (.tablePublish k q) s =
      .next (stepQ (settleRecords n (stepQ u))) ∧ (queue u k q).busy = some c ∧ mget u.eng.reads id = some (.record c false) ∧ HbmSame s u) ∧
    (∀ c b, recordRow s c b = none → recDelete b = false → mirrorBit s c.comp = false → ∃ u, publishRecord c b s = endPublish c 0 (byteAt b 0) u ∧
      ((gtable u (byteAt b 0)).bind curVer).map (fun v => (v.version, v.bytes)) = some (fld b 4 4, b)) ∧
    (∀ lp tc p e d b, AtSender s lp p e → p.opcode = 0x56 → e.what = .trailer → p.status = 0 → findDesc s e.desc = some d → d.batch? = some b →
      Endable s d → d.deadline = 0 → d.fail = none → ∃ u, exec (.gbagResponse lp tc p) s = .next (settleEng u) ∧ EndedWith s d 0 u))

/-- R140, R191, R192, R199, R214 to R219, Table 7-9: a contribution, an arrival or a partial of a member that the chunk has not had is
folded into it and answered OK; one that it has had is a duplicate, counted and answered OK; one beyond the accumulation window is to come
again. A node keeps its parent's release; a root takes no result. An OK for a partial or a release takes that packet off; one refused with
RETRY_LATER is sent again. -/
def Obligations.NodesFoldAndRelease : Prop :=
  (∀ (s : State) (lp tc : Nat) (p : Kmt) (d : Desc) (i : Nat) (sh : ShareSt) (n : Node),
    AtWork s lp tc p d i sh → d.node? = some n → subPhase p = d.level → p.addr % 512 = 0 → contributes d n (subContrib p) = true →
    let j := p.addr / 512
    let c := subContrib p
    let ca := mgetD n.chunks j {}
    let seg := (p.addr - sh.lo) / 65536
    let ok := fun (u : State) => engReply lp tc p 0 0 [] (tileInp sh.tile) u
    let takes := fun (e : Instr) (v : ChunkAcc) => ∃ u, exec e s = .next (advanceNode d.id (ok u)) ∧ HbmSame s u ∧
      ∃ m, (findDesc u d.id).bind (·.node?) = some m ∧ mgetD m.chunks j {} = v ∧ m.members = n.members ∧ m.segs = n.segs
    n.segs.getD i 0 ≤ seg →
    (seg < n.segs.getD i 0 + winSegs d → ca.who.contains c = false →
      (p.opcode = 0x50 → d.level ≤ 1 → d.coll ≠ 5 → (engData p).length = dataLen d.inFmt (chunkLen d j) →
        takes (.econtrib lp tc p) (foldChunk d ca c d.inFmt (chunkLen d j) (engData p)).1) ∧
      (p.opcode = 0x52 → 1 < d.level → d.coll ≠ 5 → (engData p).length = chunkLen d j * (fmtBits (partialFmt d.mode) / 8) →
        takes (.epart lp tc p) (foldChunk d ca c (partialFmt d.mode) (chunkLen d j) (engData p)).1) ∧
      (p.opcode = 0x53 → d.level ≤ 1 → d.coll = 5 → engData p = [] → takes (.ebarrier lp tc p) { ca with who := ca.who ++ [c] })) ∧
    (ca.who.contains c = true → p.opcode = 0x50 → ∃ u, exec (.econtrib lp tc p) s = .next (ok u) ∧ CountedOne (unitCtr d.unit 0x120 0x58) s u ∧
      u.eng = s.eng ∧ HbmSame s u) ∧
    (n.segs.getD i 0 + winSegs d ≤ seg → ca.who.contains c = false → p.opcode = 0x50 → ∃ u,
      exec (.econtrib lp tc p) s = .next (engReply lp tc p 0x02 12 [] (tileInp sh.tile) u) ∧ u.eng = s.eng ∧ HbmSame s u)) ∧
  (∀ (s : State) (lp tc : Nat) (p : Kmt),
    (∀ d i sh n, AtWork s lp tc p d i sh → d.node? = some n → p.opcode = 0x51 → subPhase p = 0xFFFF → p.addr = 0 → engData p = [] →
      d.level ≠ d.depth → ∃ u, exec (.eresult lp tc p) s = .next (nodeStep d.id u) ∧ HbmSame s u ∧
      ∃ m, (findDesc u d.id).bind (·.node?) = some m ∧ m = { n with rel := some { lp, tc, pkt := p } }) ∧
    (∀ d i sh n, AtWork s lp tc p d i sh → d.node? = some n → p.opcode = 0x51 → d.level = d.depth → ∃ u inp,
      exec (.eresult lp tc p) s = .next (engReply lp tc p 0x11 0 [] inp u) ∧ u.eng = s.eng ∧ HbmSame s u) ∧
    (∀ e j, AtSender s lp p e → p.opcode = 0x52 → e.what = .part j → p.status = 0 → ∃ u, exec (.epartResponse lp tc p) s =
      .next (settleEng (nodeStep e.desc u)) ∧ u.eng.sent = s.eng.sent.filter (·.tag != e.tag) ∧ u.eng.descs = s.eng.descs ∧ HbmSame s u) ∧
    (∀ e, AtSender s lp p e → p.opcode = 0x51 → e.what = .release → p.status = 0 → ∃ u, exec (.eresultResponse lp tc p) s =
      .next (settleEng (nodeStep e.desc u)) ∧ u.eng.sent = s.eng.sent.filter (·.tag != e.tag) ∧ HbmSame s u) ∧
    (∀ e l, AtSender s lp p e → p.opcode = 0x52 → p.status = 2 → p.src ≠ selfEp s → routeOf s p.src = .port l → live s l = true → ∃ u,
      exec (.epartResponse lp tc p) s = .next u ∧ Queued l e.tc { e.pkt with dst := p.src } u ∧ u.eng.descs = s.eng.descs ∧ HbmSame s u))

/-- R240 to R251, Tables 6-8 and 8-5: an index packet that its batch can take is folded into the open rounds, recorded and answered OK;
one taken before is a duplicate, and one of another source is DENIED. The end of a flush clears the table half of the round. A hot row that
has been read is held for its tile; a GROWREQ of an entitled sender begins to read its rows, and is answered with them; the rows of another
Talik are taken off what is out as they come, and a request unanswered for ROW_TMO is sent once more, then given up. -/
def Obligations.BatchesWork : Prop :=
  (∀ s : State,
    (∀ lp tc p d i sh b, engTakes s lp = true → AtWork (settleEng s) lp tc p d i sh → d.batch? = some b → p.opcode = 0x54 →
      let w := settleEng s
      let g := b.shares.getD i { next := 0 }
      let nb := byteAt p.payload 18
      let key := (subContrib p, p.addr, subPhase p)
      let hot := if g.hot then recHot (boundRec w b) else []
      let rounds := g.rounds.filter fun r => decide (p.addr < r.lo + r.n) && decide (r.lo < p.addr + nb)
      let folded := fun (r : Round) => (gindexBags d p).foldl (fun m e => if e.1 < r.lo ∨ r.lo + r.n ≤ e.1 then m else mset m e.1 (takeChunk hot
        (recRows (boundRec w b)) (subContrib p) (bit (byteAt p.payload 19) 0 && e.1 + 1 == p.addr + nb) e.2 (mgetD m e.1 {}))) r.bags
      (b.folded.contains key = true → ∃ u, exec (.gindex lp tc p) s = .next (engReply lp tc p 0 0 [] (tileInp sh.tile) u) ∧ u.eng = w.eng) ∧
      (b.folded.contains key = false → p.addr + nb ≤ g.next → p.addr < g.next →
        (p.src ≠ d.srcEp → ∃ u, exec (.gindex lp tc p) s = .next (engReply lp tc p 0x13 0 [] (tileInp sh.tile) u) ∧ u.eng = w.eng ∧
          CountedOne 0x03000410 w u) ∧
        (p.src = d.srcEp → gindexBad d b i p = false → b.cut = [] → (∀ r ∈ rounds, r.phase ≠ 1) →
          (∀ x ∈ gindexBags d p, (((roundAt b i x.1).map fun r => mgetD (Round.bags r) x.1 {}).getD {}).entries + x.2.length ≤ 65536) →
          (∀ r ∈ rounds, dedupUsed { r with bags := folded r } ≤ 131072) →
          ∃ u x, exec (.gindex lp tc p) s = .next (settleEng (engReply lp tc p 0 0 [] (tileInp sh.tile) u)) ∧
            (findDesc u d.id).bind (·.batch?) = some x ∧ x.folded = b.folded ++ [key] ∧ x.ok = b.ok ∧ HbmSame w u))) ∧
    (∀ id tile d b (i : Nat) (sh : ShareSt) (g : GShare) (r : Round), running s = true → findDesc s id = some d → d.batch? = some b → d.shares[i]? = some sh → sh.tile = tile →
      b.shares[i]? = some g → g.rounds = [r] → r.phase = 1 → r.todo = [] → r.out = [] → ∃ t x, ∃ y : GShare, exec (.roundFlushDone id tile) s = .next t ∧
      OnlyChanges [.eng] s t ∧ (findDesc t id).bind (·.batch?) = some x ∧ x.shares[i]? = some y ∧
      y.rounds = [{ r with phase := 0, bags := r.bags.map fun g => (g.1, { g.2 with v := g.2.v + sum (g.2.counts.map (·.2)), counts := [] }) }])) ∧
  (∀ s : State,
    (∀ id tile table ver row bs h, running s = true → mget s.eng.reads id = some (.hot tile table ver row) → readDone s id = some (0, bs) →
      mget s.eng.hot tile = some h → h.table = table → h.version = ver → mirrorBit s (((gtable s table).map (·.comp)).getD 0) = false →
      ∃ u, exec (.rowReadResponse id) s = .next (settleEng u) ∧ (mget u.eng.hot tile).map (·.rows) = some (mset h.rows row bs) ∧ HbmSame s u) ∧
    (∀ id v bs x, running s = true → mget s.eng.reads id = some (.serve v 0) → readDone s id = some (0, bs) →
      s.eng.serves.find? (·.id == v) = some x → x.rows = [none] → ∃ u, exec (.rowReadResponse id) s =
      .next (engReply x.wait.lp x.wait.tc x.wait.pkt 0 0 bs (tileInp x.unit) u) ∧ (∀ y ∈ u.eng.serves, y.id ≠ v) ∧ HbmSame s u) ∧
    (∀ lp tc p, engTakes s lp = true → p.rsp = false → p.dst = selfEp s → p.opcode = 0x55 →
      ((senderRow (takeRx lp tc p s) lp tc p).or (unitRow (takeRx lp tc p s) p)).status = 0 →
      let b := engData p
      let n := fld b 2 2
      let w := fld b 4 2
      let st := fld b 8 4
      ((eunit s (subUnit p)).role ≠ 2 → ∃ u, exec (.growreq lp tc p) s = .next (engReply lp tc p 0x11 0 [] (tileInp (subUnit p)) u) ∧ u.eng = s.eng) ∧
      ((eunit s (subUnit p)).role = 2 → 32 ≤ w → w ≤ 2048 → w % 32 = 0 → 1 ≤ n → n ≤ growMax w → st % 32 = 0 → w ≤ st → st ≤ 1048576 →
        s.dir.regions = [] → ∃ t, exec (.growreq lp tc p) s = .next t ∧ HbmSame s t ∧ t.eng.serves = s.eng.serves ++
          [{ id := s.xlt.nextId, unit := subUnit p, wait := { lp, tc, pkt := p }, rows := List.replicate n none }])) ∧
    (∀ lp tc p e d share lo k rows alone again, AtSender s lp p e → p.opcode = 0x55 → p.status = 0 →
      e.what = .rows share (some lo) k rows alone again → findDesc s e.desc = some d → ∃ u, exec (.growreqResponse lp tc p) s = .next (settleEng u) ∧
      u.eng.sent = s.eng.sent.filter (·.tag != e.tag) ∧ HbmSame s u) ∧
    (∀ tag e d share lo k rows alone, running s = true → s.eng.sent.find? (·.tag == tag) = some e → findDesc s e.desc = some d →
      (e.what = .rows share lo k rows alone true → ∃ u, exec (.rowTmoExpiry tag) s = .next (settleEng u) ∧
        u.eng.sent = s.eng.sent.filter (·.tag != tag) ∧ u.clock.clk = max s.clock.clk (e.at_ + bits (reg s 0x05800020) 31 24 * 1000)) ∧
      (∀ b l, e.what = .rows share lo k rows alone false → d.batch? = some b → fld (shardAt (boundRec s b) k) 8 4 % 2 ^ 18 = 0x3FFFF →
        e.pkt.dst ≠ selfEp s → routeOf s e.pkt.dst = .port l → live s l = true → s.dev.devState ≠ .seconding → ∃ t,
        exec (.rowTmoExpiry tag) s = .next t ∧ Queued l e.tc { e.pkt with rtx := true } t ∧ CountedOne (unitCtr d.unit 0x160 0x88) s t ∧
        t.clock.clk = max s.clock.clk (e.at_ + bits (reg s 0x05800020) 31 24 * 1000) ∧ HbmSame s t)))

/-- R262 to R265, R270 to R272, R276: a FILTER_POST whose program passes makes its run active and is answered OK, one whose program does not
is BAD_PARAM and counted. New records of the source, inside the window, are evaluated; known ones are duplicates. The OK for a trailer ends
its run. -/
def Obligations.FiltersRun : Prop := ∀ s : State,
  (∀ k q c, Starts s k q 0x32 none c → (descRow s c.params).status = 0 →
    let w := settleEng (takeStart c s)
    let d := runDesc (newDesc w c.params 1 (.run {}))
    (progCheck d = none → slotsFree w d = true → mirrorBit w d.comp = false → ∃ u, exec (.filterPost k q) s = .next (stepQ (reply c 0 0 [] u)) ∧
      u.eng.descs = w.eng.descs ++ [d] ∧ HbmSame w u) ∧
    (∀ e, progCheck d = some e → ∃ u, exec (.filterPost k q) s = .next (stepQ (reply c 0x11 0 [] u)) ∧ u.eng.descs = w.eng.descs ∧
      CountedOne 0x05800498 w u)) ∧
  (∀ lp tc p d i sh r recs, AtWork s lp tc p d i sh → d.run? = some r → p.opcode = 0x58 → p.src = d.srcEp → fld p.payload 16 2 ≠ 0 →
    cutRecords d (fld p.payload 16 2) ((engData p).drop 8) = some recs → p.addr + fld p.payload 16 2 ≤ d.count → (∀ x, r.tc = some x → x = tc) →
    let f := r.shares.getD i {}
    let n := fld p.payload 16 2
    (∀ k, (p.addr - sh.lo) / 32768 ≤ k → k ≤ (p.addr + n - 1 - sh.lo) / 32768 → f.retired.contains k = true ∨ (evalWindow sh f).contains k = true) →
    ((∀ k, k < n → seenRec f (p.addr + k) = true) → ∃ u, exec (.frecord lp tc p) s = .next (engReply lp tc p 0 0 [] (tileInp sh.tile) u) ∧
      CountedOne (unitCtr d.unit 0x120 0x58) s u ∧ u.eng = s.eng) ∧
    ((∃ k, k < n ∧ seenRec f (p.addr + k) = false) → ∃ u x, exec (.frecord lp tc p) s = .next (settleEng (runStep d.id u)) ∧
      (findDesc u d.id).bind (·.run?) = some x ∧ HbmSame s u ∧
      x.evaluated = r.evaluated + ((List.range n).filter fun k => !seenRec f (p.addr + k)).length)) ∧
  (∀ lp tc p e d r, AtSender s lp p e → p.opcode = 0x59 → e.what = .trailer → p.status = 0 → findDesc s e.desc = some d → d.run? = some r →
    Endable s d → d.deadline = 0 → d.fail = none → ∃ u, exec (.foutputResponse lp tc p) s = .next (settleEng u) ∧ EndedWith s d 0 u)

/-- R221, R223, R225, R228: the Anchor of a work watches a node that is offered, keeps the greatest record of each node, and leaves the watch
when a newer record has come within 15 µs. -/
def Obligations.OwnershipKept : Prop := ∀ (s : State),
  (∀ lp tc p, engTakes s lp = true → p.rsp = false → p.dst = selfEp s → (ownRow (takeRx lp tc p s) lp tc p).status = 0 →
    let r := ownOf p.comp (nodeOfEp s p.src) (engData p)
    ownedDesc s r false = none → s.sw.capture = none →
    (p.opcode = 0x5C → ownedDesc s r true = none → s.eng.anchored.contains (r.comp, r.coll) = true → ∃ t w, exec (.ownOffer lp tc p) s = .next t ∧
      t.eng.watches = s.eng.watches ++ [w] ∧ w.comp = r.comp ∧ w.coll = r.coll ∧ w.level = r.level ∧ w.idx = r.idx ∧ w.epoch = r.epoch - 1 ∧
      w.at_ = s.clock.clk ∧ HbmSame s t) ∧
    (p.opcode = 0x5D → r.abort = false → ∃ t, exec (.ownAccept lp tc p) s = .next t ∧ HbmSame s t ∧
      (∃ q ∈ t.eng.recs, q.same r = true ∧ r.gt q = false) ∧ (r.epoch = 1 → (r.comp, r.coll) ∈ t.eng.anchored))) ∧
  (∀ id w, running s = true → s.eng.watches.find? (·.id == id) = some w → (∃ r ∈ s.eng.recs, r.comp = w.comp ∧ r.coll = w.coll ∧
    r.level = w.level ∧ r.idx = w.idx ∧ w.epoch < r.epoch) → ∃ t, exec (.ownershipWatchExpiry id) s = .next t ∧ OnlyChanges [.eng, .clock] s t ∧
    t.eng.watches = s.eng.watches.filter (·.id != id) ∧ t.clock.clk = max s.clock.clk (w.at_ + 15000))

/-- R298, R301 to R308, Table 10-7: a HAUL_POST that passes makes its descriptor active and is answered OK, else with the row's status. A
block that arrives waits in the input buffer, one that cannot be read ends its descriptor; a codebook whose chunks are in is resident. An OK
takes a destination off its PUT and counts its elements, any other status or the last timeout loses it; a silent one is sent again. A passed
deadline ends its descriptor with DEADLINE_MISSED, with a record. -/
def Obligations.HaulDelivers : Prop := ∀ s : State,
  (∀ k q c, Starts s k q 0x40 none c → ((haulRow s c.params false).status = 0 → ∃ u,
      exec (.haulPost k q) s = .next (settleCards (stepQ (reply c 0 0 [] u))) ∧ OnlyChanges [.xlt, .haul] (takeStart c s) u ∧
      u.haul.descs = s.haul.descs ++ [haulDesc s c.params none false fun _ => none]) ∧
    (∀ r, haulRow s c.params false = r → r.status ≠ 0 → r.status ≠ 0x13 →
      exec (.haulPost k q) s = .next (settleCards (stepQ (reply c r.status r.load [] (rowCount r (takeStart c s))))))) ∧
  (∀ id d i k x (sh : HShare), running s = true → mget s.eng.reads id = some (.block d i k) → findHaul s d = some x → x.shares[i]? = some sh →
    x.status = none → x.posting = false →
    (∀ bs, readDone s id = some (0, bs) → ∃ u y, ∃ z : HShare, exec (.blockReadResponse id) s = .next (settleCards u) ∧ findHaul u d = some y ∧
      y.shares[i]? = some z ∧ mget z.buf k = some bs) ∧
    (∀ st bs, readDone s id = some (st, bs) → st ≠ 0 → ∃ u, exec (.blockReadResponse id) s = .next (settleCards u) ∧
      (findHaul u d).map (·.status) = some (some st))) ∧
  (∀ id l, running s = true → s.haul.loads.find? (·.id == id) = some l → l.need = [] → ∃ u b, exec (.codebookLoadDone id) s =
    .next (settleCards u) ∧ OnlyChanges [.haul] s u ∧ u.haul.books = s.haul.books ++ [b] ∧ b.engine = l.engine ∧ b.comp = l.comp ∧
    b.image = l.image ∧ b.index = l.index ∧ u.haul.loads = s.haul.loads.filter (·.id != id)) ∧
  (∀ lp tc p w d, takesPackets s lp = true → p.rsp = true → p.dst = selfEp s → p.opcode = 0x40 →
    s.haul.puts.find? (·.tag == p.tag) = some w → w.need = [p.src] → findHaul s w.desc = some d →
    (p.status = 0 → ∃ u, exec (.putResponse lp tc p) s = .next (settleCards u) ∧ u.haul.puts = s.haul.puts.filter (·.tag != p.tag) ∧ HbmSame s u ∧
      (findHaul u w.desc).map (·.done) = some (if d.dests.all (d.lost.contains ·) then d.done else d.done + w.elems)) ∧
    (p.status ≠ 0 → d.lost.contains p.src = false → ∃ u, exec (.putResponse lp tc p) s = .next (settleCards u) ∧
      (findHaul u w.desc).map (·.lost) = some (d.lost ++ [p.src]) ∧ CountedOne 0x06800400 s u ∧ HbmSame s u)) ∧
  (∀ tag w d ep, running s = true → s.haul.puts.find? (·.tag == tag) = some w → findHaul s w.desc = some d → w.need = [ep] →
    (bits (reg s 0x06800000) 23 20 ≤ w.tries → d.lost.contains ep = false → ∃ u, exec (.putTmoExpiry tag) s = .next (settleCards u) ∧
      (findHaul u w.desc).map (·.lost) = some (d.lost ++ [ep]) ∧ u.clock.clk = max s.clock.clk (w.sentAt + putTmoNs s * 2 ^ w.tries)) ∧
    (∀ l, w.tries < bits (reg s 0x06800000) 23 20 → w.redo = [] → w.blocks = [] → routeOf s ep = .port l → live s l = true → ∃ u,
      exec (.putTmoExpiry tag) s = .next (settleCards u) ∧ Queued l 3 (putPkt s d w true ep) u ∧ HbmSame s u ∧
      u.clock.clk = max s.clock.clk (w.sentAt + putTmoNs s * 2 ^ w.tries))) ∧
  (∀ n d, running s = true → s.dev.devState ≠ .seconding → findHaul s d.id = some d → d.status = none → d.posting = false →
    (haulOn s n).filter (fun d => d.deadline != 0 && decide (d.deadline < s.clock.tb)) = [d] → ∃ u, exec (.haulDeadlineCheck n) s =
    .next (settleCards u) ∧ (findHaul u d.id).map (·.status) = some (some 0x40) ∧ LastFault 6 2 s u ∧ (∀ w ∈ u.haul.puts, w.desc ≠ d.id))

/-- R318, R324 to R329, R332: LOAD waits for its image; START runs a loaded card from its release word, STOP stops a running one, UNLOAD
unloads one that does not run. Arming takes the next layer and posts its steps; a step refused with RETRY_LATER is posted again. A filled
block is written into the window, a fill that fails is given up. Each millisecond adds to the usage of every composition. -/
def Obligations.CardsRun : Prop := ∀ s : State,
  (∀ k q c, Starts s k q 0x41 (some 1) c → ringBig s c = true → s.dev.devState ≠ .quiesced → s.dev.devState ≠ .baseCamp → compLive s k = true →
    (cardAt s (pb c 1) = none → s.dir.regions = [] → ∃ u id, exec (.routeLoadLoad k q) s = .next (settleCardReads 4 (stepQ u)) ∧
      (queue u k q).busy = some c ∧ mget u.eng.reads id = some (.card c false) ∧ HbmSame s u) ∧
    (∀ x, cardAt s (pb c 1) = some x → exec (.routeLoadLoad k q) s = .next (settleCardReads 4 (stepQ (reply c 0x11 0 [] (takeStart c s)))))) ∧
  (∀ k q c x, cardAt s (pb c 1) = some x → ringBig s c = true →
    (∀ a, Starts s k q 0x41 (some 2) c → x.comp = k → x.st = 0 → genCheck s k 0xFFFF (rcRelSpace x.raw) (rcRelAddr x.raw) 8 2 = 0 →
      relWord s x = some a → poisoned s a 8 = false → ∃ u y, exec (.routeLoadStart k q) s =
      .next (settleCards (stepQ (reply c 0 0 [] (prefetch (pb c 1) u)))) ∧ OnlyChanges [.cards] (takeStart c s) u ∧ cardAt u (pb c 1) = some y ∧
      y.st = 1 ∧ y.passes = pf c 4 4 ∧ y.r0 = fld (memRead s.mem a 8) 0 8 ∧ y.nextN = 0) ∧
    (Starts s k q 0x41 (some 2) c → x.comp ≠ k → exec (.routeLoadStart k q) s =
      .next (settleCards (stepQ (reply c 0x13 0 [] (count 0x08000418 (takeStart c s)))))) ∧
    (Starts s k q 0x41 (some 3) c → x.comp = k → x.st = 1 → ∃ u, exec (.routeLoadStop k q) s =
      .next (afterRoute (pb c 1) (stepQ (applyRes c (.pending (.card (pb c 1)) []) u))) ∧ (cardAt u (pb c 1)).map (·.st) = some 2 ∧ HbmSame s u) ∧
    (Starts s k q 0x41 (some 4) c → x.comp = k → x.st = 0 → ∃ u, exec (.routeLoadUnload k q) s =
      .next (settleCards (stepQ (applyRes c (.pending (.card (pb c 1)) []) u))) ∧ (cardAt u (pb c 1)).map (·.st) = some 4 ∧ HbmSame s u)) ∧
  (∀ n x, running s = true → cardAt s n = some x → x.st = 1 →
    (x.passes = 0 ∨ x.nextN < x.passes * max 1 (rcLayers x.raw) → x.steps = [] → ∃ u y, exec (.layerArm n) s = .next (settleCards u) ∧
      cardAt u n = some y ∧ y.nextN = x.nextN + 1 ∧ mget y.armed x.nextN = some s.clock.tb ∧ HbmSame s u) ∧
    (∀ k t, x.steps.find? (fun t => t.step == k && t.retry) = some t → (haulRow s (stepPost x t.n k n) true).status = 0 → ∃ u,
      exec (.stepRepost n k) s = .next (settleCards u) ∧ u.haul.descs.length = s.haul.descs.length + 1 ∧ HbmSame s u)) ∧
  (∀ id n key step share k x f b, running s = true → mget s.eng.reads id = some (.fill n key step share k) → cardAt s n = some x →
    x.fills.find? (fun f => f.n == key && f.step == step && f.share == share && f.next == k) = some f →
    let slot := fld (stepRaw x.raw step) 28 2
    let sh := ((x.split.getD step [])[share]?).getD { tile := 0, lo := 0, hi := 0 }
    (∀ st, readDone s id = some (st, b) → st ≠ 0 → ∃ u, exec (.fillReadResponse id) s = .next (settleCards (startFill n u)) ∧
      CountedOne 0x07000408 s u ∧ HbmSame s u ∧
      (cardAt u n).map (·.fills) = some (x.fills.filter fun g => !(g.n == f.n && g.step == f.step && g.share == f.share))) ∧
    (∀ place o i e, readDone s id = some (0, b) → envRow false k slot b = 0 → sharePlace x key step share = some place → k + 1 = sh.hi →
      ringSegs x.raw (engineCrest sh.tile) (place + (k - sh.lo) * slot) b.length = [(o, b.length)] → extAt s (rcWinSpace x.raw) o = some (i, e) →
      ∃ u, exec (.fillReadResponse id) s = .next (settleCards (startFill n u)) ∧ memRead u.mem (extAddr e o) b.length = b ∧
        (cardAt u n).map (·.filled) = some (x.filled ++ [(key, step, share)]))) ∧
  (running s = true → (s.comps.map (·.1)).Nodup → ∃ t, exec .usageIntegralTick s = .next t ∧ OnlyChanges [.comps] s t ∧
    ∀ k, (comp s k).st ≠ 0 → comp t k = { comp s k with hbmMs := satAdd (2 ^ 64 - 1) (comp s k).hbmMs (sum (comp s k).hbmUse)
                                                        trayMs := satAdd (2 ^ 64 - 1) (comp s k).trayMs (comp s k).trayUse })

/-! ### Registers and the management network (chapters 13, 16 and 17) -/

/-- R43, R364, R398, R402, R469, R472: a register write on the command path is masked to its fields and taken, unless the path does not
reach it; a PORT_CFG that R398 refuses sets CFG_REJ alone; RETRAIN takes a link down; CMD_ATTN_CAUSE is cleared by ones; a read of a counter
clears it, but on the read-out path. -/
def Obligations.RegistersWritten : Prop := ∀ s : State,
  (∀ v, cmdPathUp s = true → exec (.registerWrite .cmd 0x0800000C v) s = .next (afterWrite (setReg 0x0800000C (v.toNat % 4096) s)) ∧
    (∀ a, isM a = true → a % 4 = 0 → a < 0x0D000000 → exec (.registerWrite .cmd a v) s = .next (afterWrite s))) ∧
  (∀ a v, exec (.registerWrite .readout a v) s = .next s ∧ exec (.registerWrite .smbus a v) s = .next s) ∧
  (∀ p v, cmdPathUp s = true → p < 96 → wordOk s (portReg p 0) (v.toNat &&& 0xE37) = true →
    (portCfgRefused s p (v.toNat &&& 0xE37) = false →
      exec (.portCfgWrite .cmd (portReg p 0) v) s = .next (afterWrite (setPortCfg p (v.toNat &&& 0xE37) s))) ∧
    (portCfgRefused s p (v.toNat &&& 0xE37) = true → exec (.portCfgWrite .cmd (portReg p 0) v) s =
      .next (afterWrite (setReg (portReg p 8) 1 s)))) ∧
  (∀ p v lp, cmdPathUp s = true → p < 96 → lportsOf s p = [lp] → bit v.toNat (lp % 8) = true → (lport s lp).st ≠ 0 → noTrayOn s lp → ∃ u,
    exec (.portCtlRetrain .cmd p v) s = .next (afterWrite u) ∧ (lport u lp).st = 1 ∧ (lport u lp).replay = [] ∧ u.flt.log = s.flt.log ∧ HbmSame s u) ∧
  (∀ v, cmdPathUp s = true → ∃ u, exec (.cmdAttnCauseW1c .cmd v) s = .next (afterWrite u) ∧ OnlyChanges [.cmd] s u ∧
    ∀ b, bit u.cmd.cause b = (bit s.cmd.cause b && !bit v.toNat b)) ∧
  (∀ a, isCounter a = true → cmdPathUp s = true → ∃ t, exec (.counterReadClear .cmd a) s = .next t ∧ OnlyChanges [.ctrs, .latched] s t ∧
    ctr t a = 0 ∧ ∀ b, b ≠ a → ctr t b = ctr s b) ∧
  (∀ a, dead s = false → ∃ t, exec (.counterReadClear .readout a) s = .next t ∧ OnlyChanges [.latched] s t)

/-- R165, R351, R383, R384, R459, R463, R464, R467, R469: a session with the right reads and writes registers, those of path M too; a message
with a bad tag is dropped and counted, one without the right is DENIED. A reset that it asks for is due 10 µs later; an eviction leaves its
agent DEAD, with a record; in BIVOUAC a read-out of frozen state starts. -/
def Obligations.SessionsReachRegisters : Prop := ∀ (s : State) (h : MgmtHdr) (q : Session),
  (InSession s h q → q.recovery = false → q.hutOnly = false →
    (∀ a n, bit q.rights 0 = true → s.dev.devState ≠ .bivouac → a % 4 = 0 → 1 ≤ n → n ≤ 64 → a + 4 * n ≤ windowsEnd → ∃ ws u,
      exec (.mgmtRegRead h a n) s = .next (said h q 0x10 0 ((ws.map (le 4)).flatten) u) ∧
      (ws, u) = readWords (.mgmt h.sess) true n a (served s h q)) ∧
    (∀ a n, bit q.rights 0 = false → exec (.mgmtRegRead h a n) s = .next (said h q 0x10 0x13 [] (served s h q))) ∧
    (∀ a ws, bit q.rights 1 = false → exec (.mgmtRegWrite h a ws) s = .next (afterWrite (said h q 0x11 0x13 [] (served s h q)))) ∧
    (bit q.rights 1 = true →
      (∀ v, s.dev.devState ≠ .bivouac → exec (.mgmtRegWrite h 0x03000008 [v]) s =
        .next (afterWrite (said h q 0x11 0 [] (setReg 0x03000008 (v.toNat % 2 ^ 18) (served s h q))))) ∧
      (∀ v, bits v.toNat 31 16 = 0x5EED → s.dev.resetReq = none →
        (bit v.toNat 1 = true → ∃ u, exec (.hutRstCtlCold h v) s = .next (afterWrite (said h q 0x11 0 [] u)) ∧ OnlyChanges [.dev] (served s h q) u ∧
          u.dev.resetReq = some { cold := true, cause := 3, due := s.clock.clk + 10000 }) ∧
        (bit v.toNat 1 = false → bit v.toNat 0 = true → 6 ≤ s.dev.stage → s.dev.stage ≠ 15 → s.dev.warm = false → ∃ u,
          exec (.hutRstCtlWarm h v) s = .next (afterWrite (said h q 0x11 0 [] u)) ∧ OnlyChanges [.dev] (served s h q) u ∧
          u.dev.resetReq = some { cold := false, cause := 4, due := s.clock.clk + 10000 })) ∧
      (∀ v apt n, s.dev.devState ≠ .bivouac → bit v.toNat 31 = true → bits v.toNat 21 16 = apt → bits v.toNat 8 0 = n → (mget s.dir.apts apt).isSome →
        (agentAt s apt n).st = 1 → s.dir.txns = [] → s.dir.multis = [] → mirrorBit s (spaceComp s (mgetD s.dir.apts apt 0)) = false → ∃ u,
        exec (.dirAgentEvict h v) s = .next (afterWrite (said h q 0x11 0 [] u)) ∧ (agentAt u apt n).st = 2 ∧ (agentAt u apt n).cause = 2 ∧
        LastFault 7 3 s u ∧ CountedOne 0x04000438 s u ∧ HbmSame s u ∧ ∃ r ∈ u.dir.reclaims, r.apt = apt ∧ r.agent = n) ∧
      (∀ v low, low < 2 ^ 32 → s.heldLow.find? (fun l => decide (l.1 = .mgmt h.sess) && l.2.1 == 0x24) = some (.mgmt h.sess, 0x24, low) → ∃ u,
        exec (.frzReadoutStart h v) s = .next (afterWrite (said h q 0x11 0 [] u)) ∧ OnlyChanges [.dev, .regs, .heldLow] (served s h q) u ∧
        (s.dev.devState = .bivouac → u.dev.roStat = 1 ∧ u.dev.roBusy = true ∧ u.dev.roAddr = low + v.toNat * 2 ^ 32) ∧
        (s.dev.devState ≠ .bivouac → u.dev.roStat = 0x13)))) ∧
  (∀ a n, sessAt s h.sess = some q → mgmtUp s = true → h.tagOk = false ∨ h.seq ≠ q.rx + 1 →
    exec (.mgmtRegRead h a n) s = .next (count 0x09000408 s))

/-- R382 to R385: a controller whose chain is admitted is answered, and one whose is not is DENIED and counted; the key exchange opens a session
with the rights of the anchor; an idle session ends. The SPDM requests are answered under the right A with their responses, any other with
an error. -/
def Obligations.SessionsOpen : Prop := ∀ s : State, mgmtUp s = true →
  (∀ peer nonce chain, s.sec.pufOk = true → s.sec.sessions.length < 8 →
    (∀ key rights comps hut, admits s chain = some (key, rights, comps, hut) → ∃ t k ps, exec (.hello peer nonce chain) s = .next t ∧
      OnlyChanges [.sec, .out, .freeCtr] s t ∧ t.out = s.out ++ [.shake peer 2 0 ps] ∧ t.sec.shakes = s.sec.shakes.filter (·.peer != peer) ++ [k] ∧
      k.peer = peer ∧ k.key = key ∧ k.rights = rights ∧ k.comps = comps ∧ k.hutOnly = hut ∧ k.recovery = recovery s) ∧
    (admits s chain = none → exec (.hello peer nonce chain) s = .next (emit (.shake peer 2 0x13 []) (count 0x09000400 s)))) ∧
  (∀ peer ct sig k ss n, s.sec.shakes.find? (·.peer == peer) = some k → s.sec.sessions.length < 8 → Config.mlkemDecap k.seed ct = some ss →
    firstFree (fun n => (sessAt s (n + 1)).isSome) 0 8 = some n →
    (Config.mldsaVerify k.key (Config.sha3 (k.said ++ ct)) sig = true → ∃ t q, exec (.kex peer ct sig) s = .next t ∧ OnlyChanges [.sec, .out] s t ∧
      t.sec.sessions = s.sec.sessions ++ [q] ∧ q.id = n + 1 ∧ q.peer = peer ∧ q.rights = k.rights ∧ q.comps = k.comps ∧
      t.out = s.out ++ [.mgmt (n + 1) 1 4 0 (le 4 (n + 1))]) ∧
    (Config.mldsaVerify k.key (Config.sha3 (k.said ++ ct)) sig = false → ∃ t, exec (.kex peer ct sig) s = .next t ∧ t.sec.sessions = s.sec.sessions ∧
      t.out = s.out ++ [.shake peer 4 0x13 []] ∧ CountedOne 0x09000400 s t)) ∧
  (∀ n q, sessAt s n = some q → ∃ t, exec (.mgmtSessionIdle n) s = .next t ∧ OnlyChanges [.clock, .sec, .latched, .heldLow] s t ∧ sessAt t n = none ∧
    t.clock.clk = max s.clock.clk (q.at_ + bits (reg s 0x09000010) 15 8 * 1000000000)) ∧
  (∀ h q, InSession s h q → mayDo 2 q = true →
    let replies := fun (e : Instr) (code : Nat) => ∃ ps u, exec e s = .next (said h q 0x20 0 ps u) ∧ OnlyChanges [.freeCtr] (served s h q) u ∧
      ps[1]? = some (BitVec.ofNat 8 code)
    replies (.getVersion h) 0x04 ∧ replies (.getCapabilities h) 0x61 ∧ (∀ a b, replies (.negotiateAlgorithms h a b) 0x63) ∧ replies (.getDigests h) 0x01 ∧
    (∀ slot o n, (slot = 0 → o < (slotChain s).length → replies (.getCertificate h slot o n) 0x02) ∧
      (slot ≠ 0 ∨ (slotChain s).length ≤ o → replies (.getCertificate h slot o n) 0x7F)) ∧
    (∀ slot nonce, (slot = 0 → replies (.challenge h slot nonce) 0x03) ∧ (slot ≠ 0 → replies (.challenge h slot nonce) 0x7F)) ∧
    (∀ i nonce, (i = 0 ∨ i = 0xFF ∨ i ∈ [1, 2, 3, 4, 5, 6, 16] → replies (.getMeasurements h i nonce) 0x60) ∧
      (i ≠ 0 → i ≠ 0xFF → i ∉ [1, 2, 3, 4, 5, 6, 16] → replies (.getMeasurements h i nonce) 0x7F)) ∧
    (∀ code, code ∉ [0x84, 0xE1, 0xE3, 0x81, 0x82, 0x83, 0xE0] → replies (.spdmUnsupportedRequest h code) 0x7F)) ∧
  (∀ h q, InSession s h q → mayDo 2 q = false → exec (.getDigests h) s = .next (said h q 0x20 0x13 [] (served s h q)))

/-- R76, R294, R374, R377, R378, R386 to R388, R455: keys are unwrapped, installed and retired by generation; capsules and images go to flash, an
image that does not verify does not; ownership is claimed once, and released under the owner's signature. -/
def Obligations.KeysAndOwnership : Prop := ∀ (s : State) (h : MgmtHdr) (q : Session), InSession s h q →
  (∀ k g ct wrapped, mayKey k q = true →
    (compLive s k = true → g ≠ 0 → (mgetD s.sec.kgenHigh k 0 < g → (kgens s k).length < 4 →
        ∀ key, openWrapped s (le 1 k) (le 2 g) (le 1 k ++ le 1 1 ++ le 2 g ++ zeros 4) ct wrapped = some key → ∃ u,
        exec (.keyInstall h k 1 g false ct wrapped) s = .next (said h q 0x30 0 [] u) ∧ OnlyChanges [.sec, .ctrs] (served s h q) u ∧
        u.sec.keys = s.sec.keys ++ [(k, g, key)] ∧ mget u.sec.kgenHigh k = some g ∧ CountedOne 0x09000410 s u) ∧
      (g ≤ mgetD s.sec.kgenHigh k 0 → exec (.keyInstall h k 1 g false ct wrapped) s =
        .next (said h q 0x30 0x31 (le 2 (mgetD s.sec.kgenHigh k 0)) (count 0x09000418 (served s h q))))) ∧
    ((kgens s k).contains g = true → s.haul.descs = [] → ∃ u, exec (.keyRetire h k g) s =
      .next (let w := said h q 0x31 0 [] u; if running w then settleAll w else w) ∧ OnlyChanges [.sec, .haul] (served s h q) u ∧
      u.sec.keys = s.sec.keys.filter fun x => !(x.1 == k && x.2.1 == g))) ∧
  (∀ lp tx an ssci salt pn ct wrapped key, mayDo 4 q = true → isLport s lp = true → an < 4 → salt.length = 12 →
    openWrapped s (le 2 lp) (le 2 an) (le 2 lp ++ le 1 (b2n tx) ++ le 1 an ++ le 4 ssci) ct wrapped = some key → ∃ u,
    exec (.sakInstall h lp tx an ssci salt pn ct wrapped) s = .next (said h q 0x32 0 [] u) ∧ OnlyChanges [.lports] (served s h q) u ∧
    ({ an, ssci, salt, key, pn } : Sa) ∈ (if tx then (lport u lp).txSa else (lport u lp).rxSa) ∧ (tx = true → (lport u lp).txAn = some an)) ∧
  (∀ c, mayDo 6 q = true → ∃ u, exec (.capsuleWrite h c) s = .next (said h q 0x40 0 [] u) ∧ OnlyChanges [.dev] (served s h q) u ∧
    u.dev = { s.dev with flash.capsule := some c }) ∧
  (∀ i, q.recovery = true ∨ bit q.rights 6 = true →
    (imageErr i = none → flashMinSvn s ≤ i.svn → ∃ u, exec (.imageWrite h i) s = .next (said h q 0x41 0 [] u) ∧
      OnlyChanges [.dev] (served s h q) u ∧ u.dev.flash.image = some i ∧
      u.dev.resetReq = if q.recovery then some { cold := true, cause := 5, due := s.clock.clk + 10000 } else s.dev.resetReq) ∧
    (imageErr i ≠ none → exec (.imageWrite h i) s = .next (said h q 0x41 0x22 [] (served s h q)))) ∧
  (∀ key, mayDo 5 q = true → (s.sec.owned = false → ∃ u, exec (.ownerClaim h key) s = .next (said h q 0x42 0 [] u) ∧
      OnlyChanges [.sec, .dev] (served s h q) u ∧ u.sec.owned = true ∧ u.dev.flash.owner = some key) ∧
    (s.sec.owned = true → exec (.ownerClaim h key) s = .next (said h q 0x42 0x13 [] (served s h q)))) ∧
  (∀ sig o, mayDo 6 q = true → s.dev.flash.owner = some o →
    (s.sec.owned = true → Config.mldsaVerify o (txtRelease ++ le 8 s.sec.nodeId) sig = true → ∃ u, exec (.ownerRelease h sig) s =
      .next (said h q 0x43 0 [] u) ∧ OnlyChanges [.dev] (served s h q) u ∧ u.dev.flash.owner = none ∧ u.dev.flash.capsule = none) ∧
    (Config.mldsaVerify o (txtRelease ++ le 8 s.sec.nodeId) sig = false → exec (.ownerRelease h sig) s =
      .next (said h q 0x43 0x13 [] (served s h q))))

/-! ### The Partner (chapter 15) -/

/-- R423 to R425, R437 to R440: a log packet of the Partner is applied in order, once, and answered with APPLIED_LSN; the answer opens gates, and
a packet unanswered for MLOG_TMO goes again. A Leader marks every window on every lane, and follows once its snapshot is out; a promotion
that does not come through ends with ABORTED. -/
def Obligations.MirrorLog : Prop := ∀ s : State, running s = true →
  (∀ lp tc p r, takesPackets s lp = true → p.opcode = 0x80 → p.rsp = false → s.flt.paired = true → seconding s = false →
    (partnerPorts s).contains lp = true → 24 ≤ p.len → p.len ≤ 4096 → p.dst = selfEp s → tc = 6 →
    recsOf (fld p.payload 2 2) (p.payload.drop 16) = [r] →
    let c := byteAt p.payload 0 % 4
    let first := fld p.payload 8 8
    let answers := fun (v : State) => exec (.mlog lp tc p) s = .next (sendFrom inCtl lp 6
      (response p (selfEp (settleAll v)) 0 0 (le 8 (lane (settleAll v) c).applied)) none (settleAll v))
    (first ≤ (lane s c).applied → r.rtype ≠ 1 → ∃ v, answers v ∧ HbmSame s v ∧ v.flt = s.flt) ∧
    (∀ i e, first = (lane s c).applied + 1 → r.rtype = 2 → s.flt.lanes.length = 4 →
      let a := fld r.body 8 8
      let d := slice r.body 24 (fld r.body 2 2)
      extAt s (fld r.body 0 2) a = some (i, e) → e.hbm = true → isShadow s r.comp (fld r.body 0 2) = true → d ≠ [] →
      d.length ≤ 2048 - a % 2048 → ∃ v, answers v ∧ (lane v c).applied = first ∧ memRead v.mem (extAddr e a) d.length = d ∧
        ∀ b, b < extAddr e a ∨ extAddr e a + d.length ≤ b → memByte v.mem b = memByte s.mem b)) ∧
  (∀ lp tc p m, takesPackets s lp = true → p.opcode = 0x80 → p.rsp = true → (partnerPorts s).contains lp = true → p.dst = selfEp s → p.status = 0 →
    s.flt.sent.find? (fun m => m.id % 2 ^ 24 == p.tag) = some m → m.lane < s.flt.lanes.length → ∃ v,
    exec (.mlogResponse lp tc p) s = .next (settleAll (settleHeld (settleSwitch v))) ∧ HbmSame s v ∧
    (lane v m.lane).acked = max (lane s m.lane).acked (fld p.payload 0 8) ∧
    v.flt.sent = s.flt.sent.filter fun q => q.lane != m.lane || decide (fld p.payload 0 8 < q.first + q.recs.length - 1)) ∧
  (∀ id m l, s.flt.sent.find? (·.id == id) = some m → logPorts s ((m.recs.headD { rtype := 0, comp := 0, body := [] }).comp) = [l] → ∃ t,
    exec (.mlogTmoExpiry id) s = .next t ∧ Queued l 6 (mlogPkt s m true) t ∧ CountedOne 0x0A000410 s t ∧ HbmSame s t ∧
    t.clock.clk = max s.clock.clk (m.sentAt + bits (reg s 0x0A000000) 15 8 * 1000)) ∧
  (s.flt.lanes.length = 4 → ∃ t, exec .secondWindowEnd s = .next t ∧ HbmSame s t ∧
    (s.flt.second.leading = 2 → s.flt.second.asked = false → t.flt.second.leading = 2 ∧ t.flt.second.window = s.clock.tb / 10000 ∧
      t.clock.clk = s.clock.clk + (10000 - s.clock.tb % 10000) ∧
      ∀ c, c < 4 → (lane t c).nextLsn = (lane s c).nextLsn + 1 ∧ (lane t c).digest = 0) ∧
    (s.flt.second.leading = 1 → snapLeft s = [] → t.flt.second.leading = 2 ∧ t.eng.insq = [] ∧ ∀ c, c < 4 → (lane t c).digest = 0)) ∧
  (s.cmd.longs.any (·.what == .promote) = true → ∃ u, exec .promoteTmoExpiry s = .next (settleAll (finishAll .promote 0x41 [] u)) ∧
    OnlyChanges [.clock, .flt] s u ∧ u.flt.second.phase = (if s.flt.second.phase = 3 then 2 else s.flt.second.phase) ∧
    u.clock.clk = max s.clock.clk (s.flt.second.promoteAt + reg s 0x0A000030 % 2 ^ 16 * 1000000))

/-- R419, R427 to R432, R441: heartbeats leave every 5 µs on every trunk; one of the Partner that names this Talik pairs them, one that does not
ends the pair, and a notice that this Talik is lost stops it. Silence fences mirrored work after FENCE_US; after LOST_US a connected Talik
takes over, an unconnected one stays fenced, and a Second records the loss. The takeover ends when nothing of it is open. -/
def Obligations.PartnersLost : Prop := ∀ s : State, running s = true →
  (∀ l, trunkPorts s = [l] → ∃ t, exec .hbeatTimer s = .next t ∧ OnlyChanges [.clock, .flt, .sw] s t ∧
    t.clock.clk = max s.clock.clk (s.flt.hbeatAt + 5000) ∧ t.flt.hbeatAt = t.clock.clk ∧
    Queued l 6 { opcode := 0x81, len := (hbeatBody t (lostNow t)).length, src := selfEp s, dst := 0x3FFFF, payload := hbeatBody t (lostNow t) } t) ∧
  (∀ lp tc p names half', takesPackets s lp = true → modeOf s lp = 3 → p.opcode = 0x81 → p.len = 32 → tc = 6 → p.rsp = false →
    let node := fld p.payload 0 8
    let ep := fld p.payload 8 4 % 2 ^ 18
    (partnerNode s = node → node ≠ 0 → bit (byteAt p.payload 13) 2 = false → s.dev.devState = .full → byteAt p.payload 12 ≠ 2 → s.flt.fenced = false →
      s.flt.second.leading = 0 →
      (names = true → bit (reg s 0x0A000000) 0 = true → half' ≠ half s → s.flt.peerLost = false → s.flt.paired = false → ∃ t,
        exec (.hbeat lp tc p names half') s = .next t ∧ t.flt.paired = true ∧ t.flt.lanes = List.replicate 4 {} ∧ t.flt.partnerEp = ep ∧
        t.flt.heardAt = some s.clock.clk ∧ (ep, node, s.clock.clk) ∈ t.flt.heard ∧ HbmSame s t) ∧
      (names = false → s.flt.paired = true → s.flt.held = [] → ∃ t, exec (.hbeat lp tc p names half') s = .next t ∧ t.flt.paired = false ∧
        t.flt.sent = [] ∧ HbmSame s t)) ∧
    (partnerNode s ≠ node → bit (byteAt p.payload 13) 2 = true → fld p.payload 24 8 = s.sec.nodeId → ∃ t,
      exec (.hbeat lp tc p names half') s = .next t ∧ t.flt.stopped = true ∧ LastFault 9 7 s t ∧ HbmSame s t)) ∧
  (∀ x, s.flt.heardAt = some x →
    (s.flt.paired = true → s.flt.fenced = false → ∃ u, exec .fenceUsExpiry s = .next u ∧ OnlyChanges [.clock, .flt, .ctrs, .cmd] s u ∧
      u.flt.fenced = true ∧ u.clock.clk = max s.clock.clk (x + bits (reg s 0x0A000000) 23 16 * 1000) ∧
      LastFault 11 1 (atLeast (x + bits (reg s 0x0A000000) 23 16 * 1000) s) u) ∧
    (s.flt.fenceKept = false →
      let w := atLeast (x + bits (reg s 0x0A000000) 31 24 * 1000) s
      (seconding s = false → s.flt.paired = true → connected s = false → ∃ u, exec .lostUsExpiry s = .next u ∧
        OnlyChanges [.clock, .flt, .ctrs, .cmd] s u ∧ u.flt.fenced = true ∧ u.flt.fenceKept = true ∧ LastFault 11 2 w u) ∧
      (seconding s = false → s.flt.paired = true → connected s = true → s.flt.fenced = false → s.flt.held = [] → s.flt.intents = [] → ∃ u,
        exec .lostUsExpiry s = .next (settleAll u) ∧ u.flt.peerLost = true ∧ u.flt.lostNode = partnerNode s ∧ u.flt.takeover = true ∧
        u.flt.paired = false) ∧
      (seconding s = true → s.flt.second.lost = false → ∃ u, exec .lostUsExpiry s = .next (settleAll u) ∧
        OnlyChanges [.clock, .flt, .ctrs, .cmd] s u ∧ u.flt.second.lost = true ∧ LastFault 10 2 w u))) ∧
  (s.flt.takeover = true → s.flt.intents = [] → ∃ t, exec .takeoverDone s = .next t ∧ OnlyChanges [.flt, .ctrs, .cmd] s t ∧
    t.flt.takeover = false ∧ LastFault 12 1 s t)
end

