-- ==== Sys2Proof/Laws/Crc.lean ====
section
/-! SUPPORT. CRC-32C is a 32-bit value; little-endian fields read back; a block of a DATA frame with its CRC reads back. -/

namespace Sys2Proof.Machine

theorem crcBits_lt (n : Nat) : ∀ c, c < 2 ^ 32 → crcBits 0x82F63B78 n c < 2 ^ 32 := by
  induction n with
  | zero => intro c h; exact h
  | succ n ih =>
    intro c h
    rw [crcBits]
    apply ih
    split
    · exact Nat.xor_lt_two_pow (by omega) (by decide)
    · omega

theorem crcByte_lt (c : Nat) (b : Byte) (h : c < 2 ^ 32) : crcByte c b < 2 ^ 32 := by
  have hb : b.toNat < 2 ^ 32 := by have := b.isLt; omega
  exact crcBits_lt 8 _ (Nat.xor_lt_two_pow h hb)

theorem crcFold_lt (bs : List Byte) : ∀ c, c < 2 ^ 32 → bs.foldl crcByte c < 2 ^ 32 := by
  induction bs with
  | nil => intro c h; exact h
  | cons b bs ih => intro c h; exact ih _ (crcByte_lt c b h)

/-- A CRC-32C is a 32-bit value. -/
theorem crc32c_lt (bs : List Byte) : crc32c bs < 2 ^ 32 := by
  unfold crc32c
  exact Nat.xor_lt_two_pow (crcFold_lt bs _ (by decide)) (by decide)

/-- A value of `n` bytes reads back from its little-endian form. -/
theorem leVal_le (n : Nat) : ∀ v, v < 256 ^ n → leVal (le n v) = v := by
  induction n with
  | zero => intro v h; simp at h; simp [le, leVal, h]
  | succ n ih =>
    intro v h
    have hv : v / 256 < 256 ^ n := Nat.div_lt_of_lt_mul (by rw [Nat.pow_succ] at h; omega)
    rw [le, leVal, ih _ hv, BitVec.toNat_ofNat]
    omega

theorem length_le (n v : Nat) : (le n v).length = n := by
  induction n generalizing v with
  | zero => rfl
  | succ n ih => simp [le, ih]

/-- The CRC that follows a block of 256 bytes makes it good (R49). -/
theorem readBlocks_block (d : List Byte) (k : Nat) (h : d.length = 256) :
    readBlocks 1 k (d ++ le 4 (crc32c d)) = (d, none) := by
  have hs : slice (d ++ le 4 (crc32c d)) 0 256 = d := by
    rw [slice, List.drop_zero, ← h, List.take_left']
    rfl
  have hf : fld (d ++ le 4 (crc32c d)) 256 4 = crc32c d := by
    rw [fld, List.drop_left' h, List.take_of_length_le (by simp [length_le])]
    exact leVal_le 4 _ (crc32c_lt d)
  simp [readBlocks, hs, hf, h]

end Sys2Proof.Machine
end

