-- ==== Sys2Proof/Laws/Dispatch.lean ====
section
/-! SUPPORT. What exec is of each command: one lemma for each arm. -/

namespace Sys2Proof.Machine

@[simp] theorem exec_pwrOkFall (s : State) : exec (.pwrOkFall) s = execPwrOkFall s := rfl
@[simp] theorem exec_porstNAssert (s : State) : exec (.porstNAssert) s = execPorstNAssert s := rfl
@[simp] theorem exec_internalResetEnd (smbAddr : Nat) (s : State) : exec (.internalResetEnd smbAddr) s = execInternalResetEnd smbAddr s := rfl
@[simp] theorem exec_brownOut (s : State) : exec (.brownOut) s = execBrownOut s := rfl
@[simp] theorem exec_coreRstNAssert (s : State) : exec (.coreRstNAssert) s = execCoreRstNAssert s := rfl
@[simp] theorem exec_coreRstNRelease (s : State) : exec (.coreRstNRelease) s = execCoreRstNRelease s := rfl
@[simp] theorem exec_frzNFall (s : State) : exec (.frzNFall) s = execFrzNFall s := rfl
@[simp] theorem exec_refclkCheck (mgt core : Bool) (sd : Nat) (s : State) : exec (.refclkCheck mgt core sd) s = execRefclkCheck mgt core sd s := rfl
@[simp] theorem exec_bootStageComplete (r : BootResult) (s : State) : exec (.bootStageComplete r) s = execBootStageComplete r s := rfl
@[simp] theorem exec_fullEntry (s : State) : exec (.fullEntry) s = execFullEntry s := rfl
@[simp] theorem exec_mgmtLinkTry (linked : Bool) (s : State) : exec (.mgmtLinkTry linked) s = execMgmtLinkTry linked s := rfl
@[simp] theorem exec_hutRstCtlCold (h : MgmtHdr) (v : Word) (s : State) : exec (.hutRstCtlCold h v) s = execHutRstCtlCold h v s := rfl
@[simp] theorem exec_hutRstCtlWarm (h : MgmtHdr) (v : Word) (s : State) : exec (.hutRstCtlWarm h v) s = execHutRstCtlWarm h v s := rfl
@[simp] theorem exec_resetDelayExpiry (s : State) : exec (.resetDelayExpiry) s = execResetDelayExpiry s := rfl
@[simp] theorem exec_hutWatchdog (s : State) : exec (.hutWatchdog) s = execHutWatchdog s := rfl
@[simp] theorem exec_thermSample (dies : List Int) (sts : List Nat) (s : State) : exec (.thermSample dies sts) s = execThermSample dies sts s := rfl
@[simp] theorem exec_ridgeLinkFailure (s : State) : exec (.ridgeLinkFailure) s = execRidgeLinkFailure s := rfl
@[simp] theorem exec_crestPllLockLoss (crest : Nat) (s : State) : exec (.crestPllLockLoss crest) s = execCrestPllLockLoss crest s := rfl
@[simp] theorem exec_hbmControllerFailure (s : State) : exec (.hbmControllerFailure) s = execHbmControllerFailure s := rfl
@[simp] theorem exec_pwrEstTick (est : List Nat) (s : State) : exec (.pwrEstTick est) s = execPwrEstTick est s := rfl
@[simp] theorem exec_ptpEventMessage (lp : Nat) (m : PtpMsg) (s : State) : exec (.ptpEventMessage lp m) s = execPtpEventMessage lp m s := rfl
@[simp] theorem exec_lldpFrame (lp : Nat) (bytes : List Byte) (s : State) : exec (.lldpFrame lp bytes) s = execLldpFrame lp bytes s := rfl
@[simp] theorem exec_portCfgWrite (path : RegPath) (addr : Nat) (v : Word) (s : State) : exec (.portCfgWrite path addr v) s = execPortCfgWrite path addr v s := rfl
@[simp] theorem exec_portCtlRetrain (path : RegPath) (port : Nat) (v : Word) (s : State) : exec (.portCtlRetrain path port v) s = execPortCtlRetrain path port v s := rfl
@[simp] theorem exec_pcsLock (lp : Nat) (s : State) : exec (.pcsLock lp) s = execPcsLock lp s := rfl
@[simp] theorem exec_initTimer (lp : Nat) (s : State) : exec (.initTimer lp) s = execInitTimer lp s := rfl
@[simp] theorem exec_noKmtPeerTimeout (lp : Nat) (s : State) : exec (.noKmtPeerTimeout lp) s = execNoKmtPeerTimeout lp s := rfl
@[simp] theorem exec_linkctlInit (lp : Nat) (bytes : List Byte) (s : State) : exec (.linkctlInit lp bytes) s = execLinkctlInit lp bytes s := rfl
@[simp] theorem exec_linkctlInitAck (lp : Nat) (bytes : List Byte) (s : State) : exec (.linkctlInitAck lp bytes) s = execLinkctlInitAck lp bytes s := rfl
@[simp] theorem exec_dataFrameReceive (lp : Nat) (sec : Sec) (bytes : List Byte) (fcs : Fcs) (s : State) : exec (.dataFrameReceive lp sec bytes fcs) s = execDataFrameReceive lp sec bytes fcs s := rfl
@[simp] theorem exec_dataFrameSend (lp : Nat) (s : State) : exec (.dataFrameSend lp) s = execDataFrameSend lp s := rfl
@[simp] theorem exec_ackReceive (lp : Nat) (bytes : List Byte) (s : State) : exec (.ackReceive lp bytes) s = execAckReceive lp bytes s := rfl
@[simp] theorem exec_nakReceive (lp : Nat) (bytes : List Byte) (s : State) : exec (.nakReceive lp bytes) s = execNakReceive lp bytes s := rfl
@[simp] theorem exec_ackDelayExpiry (lp : Nat) (s : State) : exec (.ackDelayExpiry lp) s = execAckDelayExpiry lp s := rfl
@[simp] theorem exec_idleAckTimer (lp : Nat) (s : State) : exec (.idleAckTimer lp) s = execIdleAckTimer lp s := rfl
@[simp] theorem exec_nakHoldoffExpiry (lp : Nat) (s : State) : exec (.nakHoldoffExpiry lp) s = execNakHoldoffExpiry lp s := rfl
@[simp] theorem exec_replayTmoExpiry (lp : Nat) (s : State) : exec (.replayTmoExpiry lp) s = execReplayTmoExpiry lp s := rfl
@[simp] theorem exec_laneFail (lp lane : Nat) (cause : LaneCause) (s : State) : exec (.laneFail lp lane cause) s = execLaneFail lp lane cause s := rfl
@[simp] theorem exec_degrade (lp : Nat) (m : Marker) (s : State) : exec (.degrade lp m) s = execDegrade lp m s := rfl
@[simp] theorem exec_degradeAck (lp : Nat) (m : Marker) (s : State) : exec (.degradeAck lp m) s = execDegradeAck lp m s := rfl
@[simp] theorem exec_degradeRepeatTimer (lp : Nat) (s : State) : exec (.degradeRepeatTimer lp) s = execDegradeRepeatTimer lp s := rfl
@[simp] theorem exec_switchCw (lp : Nat) (s : State) : exec (.switchCw lp) s = execSwitchCw lp s := rfl
@[simp] theorem exec_degradeAckTimeout (lp : Nat) (s : State) : exec (.degradeAckTimeout lp) s = execDegradeAckTimeout lp s := rfl
@[simp] theorem exec_restoreTimer (lp lane : Nat) (s : State) : exec (.restoreTimer lp lane) s = execRestoreTimer lp lane s := rfl
@[simp] theorem exec_restore (lp : Nat) (m : Marker) (s : State) : exec (.restore lp m) s = execRestore lp m s := rfl
@[simp] theorem exec_restoreAck (lp : Nat) (m : Marker) (s : State) : exec (.restoreAck lp m) s = execRestoreAck lp m s := rfl
@[simp] theorem exec_pcsAlignLoss (lp : Nat) (s : State) : exec (.pcsAlignLoss lp) s = execPcsAlignLoss lp s := rfl
@[simp] theorem exec_silenceTimeout (lp : Nat) (s : State) : exec (.silenceTimeout lp) s = execSilenceTimeout lp s := rfl
@[simp] theorem exec_penaltyRecompute (lp : Nat) (s : State) : exec (.penaltyRecompute lp) s = execPenaltyRecompute lp s := rfl
@[simp] theorem exec_rehomeMsExpiry (lp : Nat) (s : State) : exec (.rehomeMsExpiry lp) s = execRehomeMsExpiry lp s := rfl
@[simp] theorem exec_plainFrameReceive (lp : Nat) (sec : Sec) (f : PlainFrame) (fcs : Fcs) (s : State) : exec (.plainFrameReceive lp sec f fcs) s = execPlainFrameReceive lp sec f fcs s := rfl
@[simp] theorem exec_pfcFrameReceive (lp prio quanta : Nat) (s : State) : exec (.pfcFrameReceive lp prio quanta) s = execPfcFrameReceive lp prio quanta s := rfl
@[simp] theorem exec_arpRequest (lp target srcMac srcIp : Nat) (s : State) : exec (.arpRequest lp target srcMac srcIp) s = execArpRequest lp target srcMac srcIp s := rfl
@[simp] theorem exec_neighbourSolicitation (lp target srcMac srcIp : Nat) (s : State) : exec (.neighbourSolicitation lp target srcMac srcIp) s = execNeighbourSolicitation lp target srcMac srcIp s := rfl
@[simp] theorem exec_matchingCycle (agree : Bool) (s : State) : exec (.matchingCycle agree) s = execMatchingCycle agree s := rfl
@[simp] theorem exec_combDecision (crest : Nat) (s : State) : exec (.combDecision crest) s = execCombDecision crest s := rfl
@[simp] theorem exec_rateAdjust (s : State) : exec (.rateAdjust) s = execRateAdjust s := rfl
@[simp] theorem exec_rd (lp tc : Nat) (p : Kmt) (s : State) : exec (.rd lp tc p) s = execRd lp tc p s := rfl
@[simp] theorem exec_wr (lp tc : Nat) (p : Kmt) (s : State) : exec (.wr lp tc p) s = execWr lp tc p s := rfl
@[simp] theorem exec_fadd (lp tc : Nat) (p : Kmt) (s : State) : exec (.fadd lp tc p) s = execFadd lp tc p s := rfl
@[simp] theorem exec_fand (lp tc : Nat) (p : Kmt) (s : State) : exec (.fand lp tc p) s = execFand lp tc p s := rfl
@[simp] theorem exec_forr (lp tc : Nat) (p : Kmt) (s : State) : exec (.forr lp tc p) s = execForr lp tc p s := rfl
@[simp] theorem exec_fxor (lp tc : Nat) (p : Kmt) (s : State) : exec (.fxor lp tc p) s = execFxor lp tc p s := rfl
@[simp] theorem exec_fmaxs (lp tc : Nat) (p : Kmt) (s : State) : exec (.fmaxs lp tc p) s = execFmaxs lp tc p s := rfl
@[simp] theorem exec_fmins (lp tc : Nat) (p : Kmt) (s : State) : exec (.fmins lp tc p) s = execFmins lp tc p s := rfl
@[simp] theorem exec_swap (lp tc : Nat) (p : Kmt) (s : State) : exec (.swap lp tc p) s = execSwap lp tc p s := rfl
@[simp] theorem exec_cas (lp tc : Nat) (p : Kmt) (s : State) : exec (.cas lp tc p) s = execCas lp tc p s := rfl
@[simp] theorem exec_flush (lp tc : Nat) (p : Kmt) (s : State) : exec (.flush lp tc p) s = execFlush lp tc p s := rfl
@[simp] theorem exec_publish (lp tc : Nat) (p : Kmt) (s : State) : exec (.publish lp tc p) s = execPublish lp tc p s := rfl
@[simp] theorem exec_put (lp tc : Nat) (p : Kmt) (s : State) : exec (.put lp tc p) s = execPut lp tc p s := rfl
@[simp] theorem exec_get (lp tc : Nat) (p : Kmt) (s : State) : exec (.get lp tc p) s = execGet lp tc p s := rfl
@[simp] theorem exec_send (lp tc : Nat) (p : Kmt) (s : State) : exec (.send lp tc p) s = execSend lp tc p s := rfl
@[simp] theorem exec_messageResponse (lp tc : Nat) (p : Kmt) (s : State) : exec (.messageResponse lp tc p) s = execMessageResponse lp tc p s := rfl
@[simp] theorem exec_hbmResponse (id : Nat) (ue : List Nat) (s : State) : exec (.hbmResponse id ue) s = execHbmResponse id ue s := rfl
@[simp] theorem exec_trayResponse (lp tc : Nat) (p : Kmt) (s : State) : exec (.trayResponse lp tc p) s = execTrayResponse lp tc p s := rfl
@[simp] theorem exec_trayTmoExpiry (id : Nat) (s : State) : exec (.trayTmoExpiry id) s = execTrayTmoExpiry id s := rfl
@[simp] theorem exec_combWindowClose (id : Nat) (s : State) : exec (.combWindowClose id) s = execCombWindowClose id s := rfl
@[simp] theorem exec_replyCacheExpiry (crest src tag : Nat) (s : State) : exec (.replyCacheExpiry crest src tag) s = execReplyCacheExpiry crest src tag s := rfl
@[simp] theorem exec_drainTimeout (ext : Nat) (s : State) : exec (.drainTimeout ext) s = execDrainTimeout ext s := rfl
@[simp] theorem exec_crdS (lp tc : Nat) (p : Kmt) (s : State) : exec (.crdS lp tc p) s = execCrdS lp tc p s := rfl
@[simp] theorem exec_crdX (lp tc : Nat) (p : Kmt) (s : State) : exec (.crdX lp tc p) s = execCrdX lp tc p s := rfl
@[simp] theorem exec_cupg (lp tc : Nat) (p : Kmt) (s : State) : exec (.cupg lp tc p) s = execCupg lp tc p s := rfl
@[simp] theorem exec_cwb (lp tc : Nat) (p : Kmt) (s : State) : exec (.cwb lp tc p) s = execCwb lp tc p s := rfl
@[simp] theorem exec_cevict (lp tc : Nat) (p : Kmt) (s : State) : exec (.cevict lp tc p) s = execCevict lp tc p s := rfl
@[simp] theorem exec_cjoin (lp tc : Nat) (p : Kmt) (s : State) : exec (.cjoin lp tc p) s = execCjoin lp tc p s := rfl
@[simp] theorem exec_cleave (lp tc : Nat) (p : Kmt) (s : State) : exec (.cleave lp tc p) s = execCleave lp tc p s := rfl
@[simp] theorem exec_probeResponse (lp tc : Nat) (p : Kmt) (s : State) : exec (.probeResponse lp tc p) s = execProbeResponse lp tc p s := rfl
@[simp] theorem exec_lineTransactionDone (space line : Nat) (s : State) : exec (.lineTransactionDone space line) s = execLineTransactionDone space line s := rfl
@[simp] theorem exec_dirEntryFill (space line : Nat) (ue : Bool) (s : State) : exec (.dirEntryFill space line ue) s = execDirEntryFill space line ue s := rfl
@[simp] theorem exec_belayHoldExpiry (space line agent : Nat) (s : State) : exec (.belayHoldExpiry space line agent) s = execBelayHoldExpiry space line agent s := rfl
@[simp] theorem exec_probeTmoExpiry (id : Nat) (s : State) : exec (.probeTmoExpiry id) s = execProbeTmoExpiry id s := rfl
@[simp] theorem exec_deadUsExpiry (apt agent : Nat) (s : State) : exec (.deadUsExpiry apt agent) s = execDeadUsExpiry apt agent s := rfl
@[simp] theorem exec_dirAgentEvict (h : MgmtHdr) (v : Word) (s : State) : exec (.dirAgentEvict h v) s = execDirAgentEvict h v s := rfl
@[simp] theorem exec_reclaimWalkDone (apt agent : Nat) (s : State) : exec (.reclaimWalkDone apt agent) s = execReclaimWalkDone apt agent s := rfl
@[simp] theorem exec_recallWalkDone (id : Nat) (s : State) : exec (.recallWalkDone id) s = execRecallWalkDone id s := rfl
@[simp] theorem exec_roleAssign (comp q : Nat) (s : State) : exec (.roleAssign comp q) s = execRoleAssign comp q s := rfl
@[simp] theorem exec_roleDrainTimeout (k : UKind) (unit : Nat) (s : State) : exec (.roleDrainTimeout k unit) s = execRoleDrainTimeout k unit s := rfl
@[simp] theorem exec_roleScrubStart (k : UKind) (unit : Nat) (s : State) : exec (.roleScrubStart k unit) s = execRoleScrubStart k unit s := rfl
@[simp] theorem exec_roleScrubDone (k : UKind) (unit : Nat) (s : State) : exec (.roleScrubDone k unit) s = execRoleScrubDone k unit s := rfl
@[simp] theorem exec_ropeForm (comp q : Nat) (s : State) : exec (.ropeForm comp q) s = execRopeForm comp q s := rfl
@[simp] theorem exec_ropeDissolve (comp q : Nat) (s : State) : exec (.ropeDissolve comp q) s = execRopeDissolve comp q s := rfl
@[simp] theorem exec_collPost (comp q : Nat) (s : State) : exec (.collPost comp q) s = execCollPost comp q s := rfl
@[simp] theorem exec_gatherPost (comp q : Nat) (s : State) : exec (.gatherPost comp q) s = execGatherPost comp q s := rfl
@[simp] theorem exec_filterPost (comp q : Nat) (s : State) : exec (.filterPost comp q) s = execFilterPost comp q s := rfl
@[simp] theorem exec_memberTableReadDone (id : Nat) (s : State) : exec (.memberTableReadDone id) s = execMemberTableReadDone id s := rfl
@[simp] theorem exec_econtrib (lp tc : Nat) (p : Kmt) (s : State) : exec (.econtrib lp tc p) s = execEcontrib lp tc p s := rfl
@[simp] theorem exec_ebarrier (lp tc : Nat) (p : Kmt) (s : State) : exec (.ebarrier lp tc p) s = execEbarrier lp tc p s := rfl
@[simp] theorem exec_epart (lp tc : Nat) (p : Kmt) (s : State) : exec (.epart lp tc p) s = execEpart lp tc p s := rfl
@[simp] theorem exec_epartResponse (lp tc : Nat) (p : Kmt) (s : State) : exec (.epartResponse lp tc p) s = execEpartResponse lp tc p s := rfl
@[simp] theorem exec_eresult (lp tc : Nat) (p : Kmt) (s : State) : exec (.eresult lp tc p) s = execEresult lp tc p s := rfl
@[simp] theorem exec_eresultResponse (lp tc : Nat) (p : Kmt) (s : State) : exec (.eresultResponse lp tc p) s = execEresultResponse lp tc p s := rfl
@[simp] theorem exec_ownOffer (lp tc : Nat) (p : Kmt) (s : State) : exec (.ownOffer lp tc p) s = execOwnOffer lp tc p s := rfl
@[simp] theorem exec_ownAccept (lp tc : Nat) (p : Kmt) (s : State) : exec (.ownAccept lp tc p) s = execOwnAccept lp tc p s := rfl
@[simp] theorem exec_ownershipWatchExpiry (id : Nat) (s : State) : exec (.ownershipWatchExpiry id) s = execOwnershipWatchExpiry id s := rfl
@[simp] theorem exec_engDeadlineCheck (unit : Nat) (s : State) : exec (.engDeadlineCheck unit) s = execEngDeadlineCheck unit s := rfl
@[simp] theorem exec_engCtlReset (path : RegPath) (unit : Nat) (v : Word) (s : State) : exec (.engCtlReset path unit v) s = execEngCtlReset path unit v s := rfl
@[simp] theorem exec_engRopeCtlReset (path : RegPath) (unit : Nat) (v : Word) (s : State) : exec (.engRopeCtlReset path unit v) s = execEngRopeCtlReset path unit v s := rfl
@[simp] theorem exec_engResetDone (unit : Nat) (clean : Bool) (s : State) : exec (.engResetDone unit clean) s = execEngResetDone unit clean s := rfl
@[simp] theorem exec_sramUe (tile : Nat) (s : State) : exec (.sramUe tile) s = execSramUe tile s := rfl
@[simp] theorem exec_tablePublish (comp q : Nat) (s : State) : exec (.tablePublish comp q) s = execTablePublish comp q s := rfl
@[simp] theorem exec_gindex (lp tc : Nat) (p : Kmt) (s : State) : exec (.gindex lp tc p) s = execGindex lp tc p s := rfl
@[simp] theorem exec_roundFlushDone (desc tile : Nat) (s : State) : exec (.roundFlushDone desc tile) s = execRoundFlushDone desc tile s := rfl
@[simp] theorem exec_rowReadResponse (id : Nat) (s : State) : exec (.rowReadResponse id) s = execRowReadResponse id s := rfl
@[simp] theorem exec_growreq (lp tc : Nat) (p : Kmt) (s : State) : exec (.growreq lp tc p) s = execGrowreq lp tc p s := rfl
@[simp] theorem exec_growreqResponse (lp tc : Nat) (p : Kmt) (s : State) : exec (.growreqResponse lp tc p) s = execGrowreqResponse lp tc p s := rfl
@[simp] theorem exec_rowTmoExpiry (id : Nat) (s : State) : exec (.rowTmoExpiry id) s = execRowTmoExpiry id s := rfl
@[simp] theorem exec_gbagResponse (lp tc : Nat) (p : Kmt) (s : State) : exec (.gbagResponse lp tc p) s = execGbagResponse lp tc p s := rfl
@[simp] theorem exec_frecord (lp tc : Nat) (p : Kmt) (s : State) : exec (.frecord lp tc p) s = execFrecord lp tc p s := rfl
@[simp] theorem exec_foutputResponse (lp tc : Nat) (p : Kmt) (s : State) : exec (.foutputResponse lp tc p) s = execFoutputResponse lp tc p s := rfl
@[simp] theorem exec_haulPost (comp q : Nat) (s : State) : exec (.haulPost comp q) s = execHaulPost comp q s := rfl
@[simp] theorem exec_blockReadResponse (id : Nat) (s : State) : exec (.blockReadResponse id) s = execBlockReadResponse id s := rfl
@[simp] theorem exec_codebookLoadDone (id : Nat) (s : State) : exec (.codebookLoadDone id) s = execCodebookLoadDone id s := rfl
@[simp] theorem exec_putResponse (lp tc : Nat) (p : Kmt) (s : State) : exec (.putResponse lp tc p) s = execPutResponse lp tc p s := rfl
@[simp] theorem exec_putTmoExpiry (id : Nat) (s : State) : exec (.putTmoExpiry id) s = execPutTmoExpiry id s := rfl
@[simp] theorem exec_haulDeadlineCheck (unit : Nat) (s : State) : exec (.haulDeadlineCheck unit) s = execHaulDeadlineCheck unit s := rfl
@[simp] theorem exec_haulCtlReset (path : RegPath) (unit : Nat) (v : Word) (s : State) : exec (.haulCtlReset path unit v) s = execHaulCtlReset path unit v s := rfl
@[simp] theorem exec_haulRopeCtlReset (path : RegPath) (unit : Nat) (v : Word) (s : State) : exec (.haulRopeCtlReset path unit v) s = execHaulRopeCtlReset path unit v s := rfl
@[simp] theorem exec_haulResetDone (unit : Nat) (clean : Bool) (s : State) : exec (.haulResetDone unit clean) s = execHaulResetDone unit clean s := rfl
@[simp] theorem exec_haulUe (engine : Nat) (s : State) : exec (.haulUe engine) s = execHaulUe engine s := rfl
@[simp] theorem exec_routeLoadLoad (comp q : Nat) (s : State) : exec (.routeLoadLoad comp q) s = execRouteLoadLoad comp q s := rfl
@[simp] theorem exec_routeLoadStart (comp q : Nat) (s : State) : exec (.routeLoadStart comp q) s = execRouteLoadStart comp q s := rfl
@[simp] theorem exec_routeLoadStop (comp q : Nat) (s : State) : exec (.routeLoadStop comp q) s = execRouteLoadStop comp q s := rfl
@[simp] theorem exec_routeLoadUnload (comp q : Nat) (s : State) : exec (.routeLoadUnload comp q) s = execRouteLoadUnload comp q s := rfl
@[simp] theorem exec_layerArm (card : Nat) (s : State) : exec (.layerArm card) s = execLayerArm card s := rfl
@[simp] theorem exec_fillReadResponse (id : Nat) (s : State) : exec (.fillReadResponse id) s = execFillReadResponse id s := rfl
@[simp] theorem exec_stepRepost (card step : Nat) (s : State) : exec (.stepRepost card step) s = execStepRepost card step s := rfl
@[simp] theorem exec_usageIntegralTick (s : State) : exec (.usageIntegralTick) s = execUsageIntegralTick s := rfl
@[simp] theorem exec_cmdIntake (lp : Nat) (f : CmdFrame) (s : State) : exec (.cmdIntake lp f) s = execCmdIntake lp f s := rfl
@[simp] theorem exec_ringProducerResume (comp ring : Nat) (s : State) : exec (.ringProducerResume comp ring) s = execRingProducerResume comp ring s := rfl
@[simp] theorem exec_nop (comp q : Nat) (s : State) : exec (.nop comp q) s = execNop comp q s := rfl
@[simp] theorem exec_regRead (comp q : Nat) (s : State) : exec (.regRead comp q) s = execRegRead comp q s := rfl
@[simp] theorem exec_regWrite (comp q : Nat) (s : State) : exec (.regWrite comp q) s = execRegWrite comp q s := rfl
@[simp] theorem exec_spaceCreate (comp q : Nat) (s : State) : exec (.spaceCreate comp q) s = execSpaceCreate comp q s := rfl
@[simp] theorem exec_spaceDestroy (comp q : Nat) (s : State) : exec (.spaceDestroy comp q) s = execSpaceDestroy comp q s := rfl
@[simp] theorem exec_extentMap (comp q : Nat) (s : State) : exec (.extentMap comp q) s = execExtentMap comp q s := rfl
@[simp] theorem exec_regionCreate (comp q : Nat) (s : State) : exec (.regionCreate comp q) s = execRegionCreate comp q s := rfl
@[simp] theorem exec_regionRemove (comp q : Nat) (s : State) : exec (.regionRemove comp q) s = execRegionRemove comp q s := rfl
@[simp] theorem exec_ringCreate (comp q : Nat) (s : State) : exec (.ringCreate comp q) s = execRingCreate comp q s := rfl
@[simp] theorem exec_ringDestroy (comp q : Nat) (s : State) : exec (.ringDestroy comp q) s = execRingDestroy comp q s := rfl
@[simp] theorem exec_extentRevoke (comp q : Nat) (s : State) : exec (.extentRevoke comp q) s = execExtentRevoke comp q s := rfl
@[simp] theorem exec_jobCreate (comp q : Nat) (s : State) : exec (.jobCreate comp q) s = execJobCreate comp q s := rfl
@[simp] theorem exec_jobDestroy (comp q : Nat) (s : State) : exec (.jobDestroy comp q) s = execJobDestroy comp q s := rfl
@[simp] theorem exec_regionPublish (comp q : Nat) (s : State) : exec (.regionPublish comp q) s = execRegionPublish comp q s := rfl
@[simp] theorem exec_tenantCreate (comp q : Nat) (s : State) : exec (.tenantCreate comp q) s = execTenantCreate comp q s := rfl
@[simp] theorem exec_tenantRemove (comp q : Nat) (s : State) : exec (.tenantRemove comp q) s = execTenantRemove comp q s := rfl
@[simp] theorem exec_tenantScrubDone (comp : Nat) (s : State) : exec (.tenantScrubDone comp) s = execTenantScrubDone comp s := rfl
@[simp] theorem exec_tenantReset (comp q : Nat) (s : State) : exec (.tenantReset comp q) s = execTenantReset comp q s := rfl
@[simp] theorem exec_quiesce (comp q : Nat) (s : State) : exec (.quiesce comp q) s = execQuiesce comp q s := rfl
@[simp] theorem exec_quiesceDrainExpiry (s : State) : exec (.quiesceDrainExpiry) s = execQuiesceDrainExpiry s := rfl
@[simp] theorem exec_resume (comp q : Nat) (s : State) : exec (.resume comp q) s = execResume comp q s := rfl
@[simp] theorem exec_portRehome (comp q : Nat) (s : State) : exec (.portRehome comp q) s = execPortRehome comp q s := rfl
@[simp] theorem exec_secondStart (comp q : Nat) (s : State) : exec (.secondStart comp q) s = execSecondStart comp q s := rfl
@[simp] theorem exec_secondPromote (comp q : Nat) (s : State) : exec (.secondPromote comp q) s = execSecondPromote comp q s := rfl
@[simp] theorem exec_statsRead (comp q : Nat) (s : State) : exec (.statsRead comp q) s = execStatsRead comp q s := rfl
@[simp] theorem exec_captureStart (comp q : Nat) (s : State) : exec (.captureStart comp q) s = execCaptureStart comp q s := rfl
@[simp] theorem exec_captureStop (comp q : Nat) (s : State) : exec (.captureStop comp q) s = execCaptureStop comp q s := rfl
@[simp] theorem exec_captureRelease (comp q : Nat) (s : State) : exec (.captureRelease comp q) s = execCaptureRelease comp q s := rfl
@[simp] theorem exec_usageRead (comp q : Nat) (s : State) : exec (.usageRead comp q) s = execUsageRead comp q s := rfl
@[simp] theorem exec_cmdAttnCauseW1c (path : RegPath) (v : Word) (s : State) : exec (.cmdAttnCauseW1c path v) s = execCmdAttnCauseW1c path v s := rfl
@[simp] theorem exec_counterReadClear (path : RegPath) (addr : Nat) (s : State) : exec (.counterReadClear path addr) s = execCounterReadClear path addr s := rfl
@[simp] theorem exec_registerWrite (path : RegPath) (addr : Nat) (v : Word) (s : State) : exec (.registerWrite path addr v) s = execRegisterWrite path addr v s := rfl
@[simp] theorem exec_hello (peer : Nat) (nonce : List Byte) (chain : List (List Byte)) (s : State) : exec (.hello peer nonce chain) s = execHello peer nonce chain s := rfl
@[simp] theorem exec_kex (peer : Nat) (ct sig : List Byte) (s : State) : exec (.kex peer ct sig) s = execKex peer ct sig s := rfl
@[simp] theorem exec_mgmtSessionIdle (sess : Nat) (s : State) : exec (.mgmtSessionIdle sess) s = execMgmtSessionIdle sess s := rfl
@[simp] theorem exec_mgmtRegRead (h : MgmtHdr) (addr count : Nat) (s : State) : exec (.mgmtRegRead h addr count) s = execMgmtRegRead h addr count s := rfl
@[simp] theorem exec_mgmtRegWrite (h : MgmtHdr) (addr : Nat) (words : List Word) (s : State) : exec (.mgmtRegWrite h addr words) s = execMgmtRegWrite h addr words s := rfl
@[simp] theorem exec_getVersion (h : MgmtHdr) (s : State) : exec (.getVersion h) s = execGetVersion h s := rfl
@[simp] theorem exec_getCapabilities (h : MgmtHdr) (s : State) : exec (.getCapabilities h) s = execGetCapabilities h s := rfl
@[simp] theorem exec_negotiateAlgorithms (h : MgmtHdr) (offersSha3 offersExt : Bool) (s : State) : exec (.negotiateAlgorithms h offersSha3 offersExt) s = execNegotiateAlgorithms h offersSha3 offersExt s := rfl
@[simp] theorem exec_getDigests (h : MgmtHdr) (s : State) : exec (.getDigests h) s = execGetDigests h s := rfl
@[simp] theorem exec_getCertificate (h : MgmtHdr) (slot offset length : Nat) (s : State) : exec (.getCertificate h slot offset length) s = execGetCertificate h slot offset length s := rfl
@[simp] theorem exec_challenge (h : MgmtHdr) (slot : Nat) (nonce : List Byte) (s : State) : exec (.challenge h slot nonce) s = execChallenge h slot nonce s := rfl
@[simp] theorem exec_getMeasurements (h : MgmtHdr) (index : Nat) (nonce : List Byte) (s : State) : exec (.getMeasurements h index nonce) s = execGetMeasurements h index nonce s := rfl
@[simp] theorem exec_keyInstall (h : MgmtHdr) (comp kind kgen : Nat) (resv : Bool) (ct wrapped : List Byte) (s : State) : exec (.keyInstall h comp kind kgen resv ct wrapped) s = execKeyInstall h comp kind kgen resv ct wrapped s := rfl
@[simp] theorem exec_keyRetire (h : MgmtHdr) (comp kgen : Nat) (s : State) : exec (.keyRetire h comp kgen) s = execKeyRetire h comp kgen s := rfl
@[simp] theorem exec_sakInstall (h : MgmtHdr) (lp : Nat) (tx : Bool) (an ssci : Nat) (salt : List Byte) (pn : Nat) (ct wrapped : List Byte) (s : State) : exec (.sakInstall h lp tx an ssci salt pn ct wrapped) s = execSakInstall h lp tx an ssci salt pn ct wrapped s := rfl
@[simp] theorem exec_capsuleWrite (h : MgmtHdr) (c : Capsule) (s : State) : exec (.capsuleWrite h c) s = execCapsuleWrite h c s := rfl
@[simp] theorem exec_imageWrite (h : MgmtHdr) (img : Image) (s : State) : exec (.imageWrite h img) s = execImageWrite h img s := rfl
@[simp] theorem exec_ownerClaim (h : MgmtHdr) (key : List Byte) (s : State) : exec (.ownerClaim h key) s = execOwnerClaim h key s := rfl
@[simp] theorem exec_ownerRelease (h : MgmtHdr) (sig : List Byte) (s : State) : exec (.ownerRelease h sig) s = execOwnerRelease h sig s := rfl
@[simp] theorem exec_smbusBlockWrite (addr7 command : Nat) (data : List Byte) (pecOk : Bool) (s : State) : exec (.smbusBlockWrite addr7 command data pecOk) s = execSmbusBlockWrite addr7 command data pecOk s := rfl
@[simp] theorem exec_smbusBlockRead (addr7 command : Nat) (pecOk : Bool) (s : State) : exec (.smbusBlockRead addr7 command pecOk) s = execSmbusBlockRead addr7 command pecOk s := rfl
@[simp] theorem exec_idcode (s : State) : exec (.idcode) s = execIdcode s := rfl
@[simp] theorem exec_bypass (s : State) : exec (.bypass) s = execBypass s := rfl
@[simp] theorem exec_samplePreload (bits : Nat) (s : State) : exec (.samplePreload bits) s = execSamplePreload bits s := rfl
@[simp] theorem exec_extest (bits : Nat) (s : State) : exec (.extest bits) s = execExtest bits s := rfl
@[simp] theorem exec_frzAccess (addr : DWord) (s : State) : exec (.frzAccess addr) s = execFrzAccess addr s := rfl
@[simp] theorem exec_frzReadoutStart (h : MgmtHdr) (high : Word) (s : State) : exec (.frzReadoutStart h high) s = execFrzReadoutStart h high s := rfl
@[simp] theorem exec_readoutDone (raw : DWord) (s : State) : exec (.readoutDone raw) s = execReadoutDone raw s := rfl
@[simp] theorem exec_mlog (lp tc : Nat) (p : Kmt) (s : State) : exec (.mlog lp tc p) s = execMlog lp tc p s := rfl
@[simp] theorem exec_mlogResponse (lp tc : Nat) (p : Kmt) (s : State) : exec (.mlogResponse lp tc p) s = execMlogResponse lp tc p s := rfl
@[simp] theorem exec_mlogTmoExpiry (id : Nat) (s : State) : exec (.mlogTmoExpiry id) s = execMlogTmoExpiry id s := rfl
@[simp] theorem exec_hbeatTimer (s : State) : exec (.hbeatTimer) s = execHbeatTimer s := rfl
@[simp] theorem exec_hbeat (lp tc : Nat) (p : Kmt) (names : Bool) (half : Nat) (s : State) : exec (.hbeat lp tc p names half) s = execHbeat lp tc p names half s := rfl
@[simp] theorem exec_fenceUsExpiry (s : State) : exec (.fenceUsExpiry) s = execFenceUsExpiry s := rfl
@[simp] theorem exec_lostUsExpiry (s : State) : exec (.lostUsExpiry) s = execLostUsExpiry s := rfl
@[simp] theorem exec_takeoverDone (s : State) : exec (.takeoverDone) s = execTakeoverDone s := rfl
@[simp] theorem exec_secondWindowEnd (s : State) : exec (.secondWindowEnd) s = execSecondWindowEnd s := rfl
@[simp] theorem exec_promoteTmoExpiry (s : State) : exec (.promoteTmoExpiry) s = execPromoteTmoExpiry s := rfl
@[simp] theorem exec_pwrOkRise (s : State) : exec (.pwrOkRise) s = execPwrOkRise s := rfl
@[simp] theorem exec_tapReset (s : State) : exec (.tapReset) s = execTapReset s := rfl
@[simp] theorem exec_holdover (s : State) : exec (.holdover) s = execHoldover s := rfl
@[simp] theorem exec_spdmUnsupportedRequest (h : MgmtHdr) (code : Nat) (s : State) : exec (.spdmUnsupportedRequest h code) s = execSpdmUnsupportedRequest h code s := rfl
@[simp] theorem exec_controlCoresRestart (s : State) : exec (.controlCoresRestart) s = execControlCoresRestart s := rfl

end Sys2Proof.Machine
end

