-- ==== Sys2Proof/Laws/Maps.lean ====
section
/-! SUPPORT. Sparse maps: what a key reads as after a key has been set or removed. -/

namespace Sys2Proof.Machine

variable {α : Type}

theorem mget_mset (m : SMap α) (q k : Nat) (x : α) : mget (mset m q x) k = if k = q then some x else mget m k := by
  induction m with
  | nil => simp [mset, mget]
  | cons h t ih =>
    obtain ⟨a, v⟩ := h
    simp only [mset]
    split
    · simp [mget]
    · split
      · next hq => subst hq; simp only [mget]; split <;> rfl
      · next h1 h2 =>
        simp only [mget, ih]
        by_cases hk : k = a
        · subst hk; simp [Ne.symm h2]
        · simp [hk]

theorem mget_filter (m : SMap α) (p : Nat → Bool) (k : Nat) :
    mget (m.filter fun r => p r.1) k = if p k then mget m k else none := by
  induction m with
  | nil => simp [mget]
  | cons h t ih =>
    obtain ⟨a, v⟩ := h
    by_cases hp : p a = true
    · simp only [List.filter_cons, hp, if_true, mget, ih]
      by_cases hk : k = a
      · subst hk; simp [hp]
      · simp [hk]
    · simp only [List.filter_cons, hp, mget]
      by_cases hk : k = a
      · subst hk; simp [hp, ih]
      · simp [hk, ih]

theorem mget_mdel (m : SMap α) (q k : Nat) : mget (mdel m q) k = if k = q then none else mget m k := by
  simp only [mdel, mget_filter m (· != q) k]
  by_cases h : k = q <;> simp [h]

/-- A key reads as what was set there last; every other key as before. -/
theorem mgetD_msetD [DecidableEq α] (m : SMap α) (q k : Nat) (d x : α) :
    mgetD (msetD m q d x) k d = if k = q then x else mgetD m k d := by
  simp only [mgetD, msetD]
  by_cases hx : x = d
  · subst hx
    rw [if_pos rfl, mget_mdel]
    split <;> rfl
  · rw [if_neg hx, mget_mset]
    split <;> rfl

/-- Every key that a filter on keys keeps reads as before, the others as unlisted. -/
theorem mgetD_filter (m : SMap α) (p : Nat → Bool) (k : Nat) (d : α) :
    mgetD (m.filter fun r => p r.1) k d = if p k then mgetD m k d else d := by
  simp only [mgetD, mget_filter]
  split <;> rfl

end Sys2Proof.Machine
end

