-- ==== Sys2Proof/Laws/Memory.lean ====
section
/-! SUPPORT. HBM: every memory operation keeps the canonical form; what a byte reads as after a write, a run of writes and a
zeroing. -/

namespace Sys2Proof.Machine

/-- A byte reads as what was written to it last, and every other byte as before. -/
theorem memByte_memPut (m : List Host.Cell) (a k : Nat) (b : Byte) :
    memByte (memPut m a b) k = if k = a then b else memByte m k := mgetD_msetD m a k 0 b

/-- A write leaves every byte outside it. -/
theorem memByte_memWrite (bs : List Byte) : ∀ (m : List Host.Cell) (a k : Nat), k < a ∨ a + bs.length ≤ k →
    memByte (memWrite m a bs) k = memByte m k := by
  induction bs with
  | nil => intro m a k _; rfl
  | cons b bs ih =>
    intro m a k h
    simp only [List.length_cons] at h
    rw [memWrite, ih _ _ _ (by omega), memByte_memPut, if_neg (by omega)]

/-- Byte `i` of a write reads back. -/
theorem memByte_memWrite_at (bs : List Byte) : ∀ (m : List Host.Cell) (a i : Nat) (h : i < bs.length),
    memByte (memWrite m a bs) (a + i) = bs[i] := by
  induction bs with
  | nil => intro m a i h; simp at h
  | cons b bs ih =>
    intro m a i h
    rw [memWrite]
    cases i with
    | zero =>
      rw [memByte_memWrite bs _ _ _ (by omega), memByte_memPut]
      simp
    | succ j =>
      have := ih (memPut m a b) (a + 1) j (by simpa using h)
      rw [show a + (j + 1) = a + 1 + j by omega, this]
      rfl

/-- A zeroed range reads zero, and every other byte as before. -/
theorem memByte_memZero (m : List Host.Cell) (a n k : Nat) :
    memByte (memZero m a n) k = if a ≤ k ∧ k < a + n then 0 else memByte m k := by
  have h := mgetD_filter m (fun c => decide (c < a) || decide (a + n ≤ c)) k (0 : Byte)
  have e : memZero m a n = m.filter fun r => (fun c => decide (c < a) || decide (a + n ≤ c)) r.1 := rfl
  rw [memByte, e, h]
  by_cases hk : a ≤ k ∧ k < a + n
  · rw [if_pos hk, if_neg (by simp; omega)]
  · rw [if_neg hk, if_pos (by simp; omega)]; rfl

theorem wf_nil : Memory.wf [] := ⟨List.Pairwise.nil, by simp⟩

theorem wf_filter {m : List Host.Cell} (p : Host.Cell → Bool) (h : Memory.wf m) : Memory.wf (m.filter p) :=
  ⟨h.1.sublist List.filter_sublist, fun c hc => h.2 c ((List.mem_filter.1 hc).1)⟩

theorem mem_mset {m : List Host.Cell} {q : Nat} {x : Byte} {c : Host.Cell} (h : c ∈ mset m q x) : c = (q, x) ∨ c ∈ m := by
  induction m with
  | nil => simpa [mset] using h
  | cons d t ih =>
    obtain ⟨k, v⟩ := d
    simp only [mset] at h
    split at h
    · simpa using h
    · split at h
      · simp only [List.mem_cons] at h ⊢
        rcases h with h | h
        · exact .inl h
        · exact .inr (.inr h)
      · simp only [List.mem_cons] at h ⊢
        rcases h with h | h
        · exact .inr (.inl h)
        · rcases ih h with h | h
          · exact .inl h
          · exact .inr (.inr h)

theorem wf_mset {m : List Host.Cell} {q : Nat} {x : Byte} (h : Memory.wf m) (hx : x ≠ 0) : Memory.wf (mset m q x) := by
  induction m with
  | nil => exact ⟨by simp [mset], by simpa [mset] using hx⟩
  | cons d t ih =>
    obtain ⟨k, v⟩ := d
    obtain ⟨h1, h2⟩ := h
    rw [List.pairwise_cons] at h1
    have ht : Memory.wf t := ⟨h1.2, fun c hc => h2 c (List.mem_cons_of_mem _ hc)⟩
    simp only [mset]
    split
    · next hq =>
      refine ⟨?_, ?_⟩
      · rw [List.pairwise_cons]
        refine ⟨?_, ?_⟩
        · intro c hc
          rcases List.mem_cons.1 hc with rfl | hc
          · exact hq
          · exact Nat.lt_trans hq (h1.1 c hc)
        · rw [List.pairwise_cons]; exact h1
      · intro c hc
        rcases List.mem_cons.1 hc with rfl | hc
        · exact hx
        · exact h2 c hc
    · split
      · next hq =>
        subst hq
        refine ⟨?_, ?_⟩
        · rw [List.pairwise_cons]; exact h1
        · intro c hc
          rcases List.mem_cons.1 hc with rfl | hc
          · exact hx
          · exact h2 c (List.mem_cons_of_mem _ hc)
      · next hq hne =>
        have := ih ht
        refine ⟨?_, ?_⟩
        · rw [List.pairwise_cons]
          refine ⟨?_, this.1⟩
          intro c hc
          rcases mem_mset hc with rfl | hc
          · show k < q; omega
          · exact h1.1 c hc
        · intro c hc
          rcases List.mem_cons.1 hc with rfl | hc
          · exact h2 _ (List.mem_cons_self)
          · exact this.2 c hc

/-- Writing one byte keeps the canonical form. -/
theorem wf_memPut {m : List Host.Cell} (a : Nat) (b : Byte) (h : Memory.wf m) : Memory.wf (memPut m a b) := by
  unfold memPut msetD
  split
  · exact wf_filter _ h
  · next hb => exact wf_mset h hb

/-- Writing a run of bytes keeps the canonical form. -/
theorem wf_memWrite (bs : List Byte) : ∀ {m : List Host.Cell} (a : Nat), Memory.wf m → Memory.wf (memWrite m a bs) := by
  induction bs with
  | nil => intro m a h; exact h
  | cons b bs ih => intro m a h; exact ih (a + 1) (wf_memPut a b h)

/-- Zeroing a range keeps the canonical form. -/
theorem wf_memZero {m : List Host.Cell} (a n : Nat) (h : Memory.wf m) : Memory.wf (memZero m a n) := wf_filter _ h

end Sys2Proof.Machine
end

