-- ==== Sys2Proof/Laws/State.lean ====
section
/-! SUPPORT. What each shared operation of Ops leaves: one lemma for each part of State that it does not touch. -/

namespace Sys2Proof.Machine

@[simp] theorem elapse_dev (d : Nat) (s : State) : (elapse d s).dev = s.dev := by unfold elapse; split <;> rfl
@[simp] theorem elapse_regs (d : Nat) (s : State) : (elapse d s).regs = s.regs := by unfold elapse; split <;> rfl
@[simp] theorem elapse_ctrs (d : Nat) (s : State) : (elapse d s).ctrs = s.ctrs := by unfold elapse; split <;> rfl
@[simp] theorem elapse_latched (d : Nat) (s : State) : (elapse d s).latched = s.latched := by unfold elapse; split <;> rfl
@[simp] theorem elapse_heldLow (d : Nat) (s : State) : (elapse d s).heldLow = s.heldLow := by unfold elapse; split <;> rfl
@[simp] theorem elapse_lports (d : Nat) (s : State) : (elapse d s).lports = s.lports := by unfold elapse; split <;> rfl
@[simp] theorem elapse_sw (d : Nat) (s : State) : (elapse d s).sw = s.sw := by unfold elapse; split <;> rfl
@[simp] theorem elapse_rx (d : Nat) (s : State) : (elapse d s).rx = s.rx := by unfold elapse; split <;> rfl
@[simp] theorem elapse_toHut (d : Nat) (s : State) : (elapse d s).toHut = s.toHut := by unfold elapse; split <;> rfl
@[simp] theorem elapse_mem (d : Nat) (s : State) : (elapse d s).mem = s.mem := by unfold elapse; split <;> rfl
@[simp] theorem elapse_pages (d : Nat) (s : State) : (elapse d s).pages = s.pages := by unfold elapse; split <;> rfl
@[simp] theorem elapse_reads (d : Nat) (s : State) : (elapse d s).reads = s.reads := by unfold elapse; split <;> rfl
@[simp] theorem elapse_poison (d : Nat) (s : State) : (elapse d s).poison = s.poison := by unfold elapse; split <;> rfl
@[simp] theorem elapse_xlt (d : Nat) (s : State) : (elapse d s).xlt = s.xlt := by unfold elapse; split <;> rfl
@[simp] theorem elapse_dir (d : Nat) (s : State) : (elapse d s).dir = s.dir := by unfold elapse; split <;> rfl
@[simp] theorem elapse_cmd (d : Nat) (s : State) : (elapse d s).cmd = s.cmd := by unfold elapse; split <;> rfl
@[simp] theorem elapse_comps (d : Nat) (s : State) : (elapse d s).comps = s.comps := by unfold elapse; split <;> rfl
@[simp] theorem elapse_sec (d : Nat) (s : State) : (elapse d s).sec = s.sec := by unfold elapse; split <;> rfl
@[simp] theorem elapse_eng (d : Nat) (s : State) : (elapse d s).eng = s.eng := by unfold elapse; split <;> rfl
@[simp] theorem elapse_haul (d : Nat) (s : State) : (elapse d s).haul = s.haul := by unfold elapse; split <;> rfl
@[simp] theorem elapse_cards (d : Nat) (s : State) : (elapse d s).cards = s.cards := by unfold elapse; split <;> rfl
@[simp] theorem elapse_flt (d : Nat) (s : State) : (elapse d s).flt = s.flt := by unfold elapse; split <;> rfl
@[simp] theorem elapse_out (d : Nat) (s : State) : (elapse d s).out = s.out := by unfold elapse; split <;> rfl
@[simp] theorem elapse_freeCtr (d : Nat) (s : State) : (elapse d s).freeCtr = s.freeCtr := by unfold elapse; split <;> rfl
@[simp] theorem elapse_pending (d : Nat) (s : State) : (elapse d s).pending = s.pending := by unfold elapse; split <;> rfl

@[simp] theorem atLeast_dev (t : Nat) (s : State) : (atLeast t s).dev = s.dev := by unfold atLeast; split <;> simp
@[simp] theorem atLeast_regs (t : Nat) (s : State) : (atLeast t s).regs = s.regs := by unfold atLeast; split <;> simp
@[simp] theorem atLeast_ctrs (t : Nat) (s : State) : (atLeast t s).ctrs = s.ctrs := by unfold atLeast; split <;> simp
@[simp] theorem atLeast_latched (t : Nat) (s : State) : (atLeast t s).latched = s.latched := by unfold atLeast; split <;> simp
@[simp] theorem atLeast_heldLow (t : Nat) (s : State) : (atLeast t s).heldLow = s.heldLow := by unfold atLeast; split <;> simp
@[simp] theorem atLeast_lports (t : Nat) (s : State) : (atLeast t s).lports = s.lports := by unfold atLeast; split <;> simp
@[simp] theorem atLeast_sw (t : Nat) (s : State) : (atLeast t s).sw = s.sw := by unfold atLeast; split <;> simp
@[simp] theorem atLeast_rx (t : Nat) (s : State) : (atLeast t s).rx = s.rx := by unfold atLeast; split <;> simp
@[simp] theorem atLeast_toHut (t : Nat) (s : State) : (atLeast t s).toHut = s.toHut := by unfold atLeast; split <;> simp
@[simp] theorem atLeast_mem (t : Nat) (s : State) : (atLeast t s).mem = s.mem := by unfold atLeast; split <;> simp
@[simp] theorem atLeast_pages (t : Nat) (s : State) : (atLeast t s).pages = s.pages := by unfold atLeast; split <;> simp
@[simp] theorem atLeast_reads (t : Nat) (s : State) : (atLeast t s).reads = s.reads := by unfold atLeast; split <;> simp
@[simp] theorem atLeast_poison (t : Nat) (s : State) : (atLeast t s).poison = s.poison := by unfold atLeast; split <;> simp
@[simp] theorem atLeast_xlt (t : Nat) (s : State) : (atLeast t s).xlt = s.xlt := by unfold atLeast; split <;> simp
@[simp] theorem atLeast_dir (t : Nat) (s : State) : (atLeast t s).dir = s.dir := by unfold atLeast; split <;> simp
@[simp] theorem atLeast_cmd (t : Nat) (s : State) : (atLeast t s).cmd = s.cmd := by unfold atLeast; split <;> simp
@[simp] theorem atLeast_comps (t : Nat) (s : State) : (atLeast t s).comps = s.comps := by unfold atLeast; split <;> simp
@[simp] theorem atLeast_sec (t : Nat) (s : State) : (atLeast t s).sec = s.sec := by unfold atLeast; split <;> simp
@[simp] theorem atLeast_eng (t : Nat) (s : State) : (atLeast t s).eng = s.eng := by unfold atLeast; split <;> simp
@[simp] theorem atLeast_haul (t : Nat) (s : State) : (atLeast t s).haul = s.haul := by unfold atLeast; split <;> simp
@[simp] theorem atLeast_cards (t : Nat) (s : State) : (atLeast t s).cards = s.cards := by unfold atLeast; split <;> simp
@[simp] theorem atLeast_flt (t : Nat) (s : State) : (atLeast t s).flt = s.flt := by unfold atLeast; split <;> simp
@[simp] theorem atLeast_out (t : Nat) (s : State) : (atLeast t s).out = s.out := by unfold atLeast; split <;> simp
@[simp] theorem atLeast_freeCtr (t : Nat) (s : State) : (atLeast t s).freeCtr = s.freeCtr := by unfold atLeast; split <;> simp
@[simp] theorem atLeast_pending (t : Nat) (s : State) : (atLeast t s).pending = s.pending := by unfold atLeast; split <;> simp

@[simp] theorem useFree_dev (s : State) : (useFree s).dev = s.dev := by rfl
@[simp] theorem useFree_clock (s : State) : (useFree s).clock = s.clock := by rfl
@[simp] theorem useFree_regs (s : State) : (useFree s).regs = s.regs := by rfl
@[simp] theorem useFree_ctrs (s : State) : (useFree s).ctrs = s.ctrs := by rfl
@[simp] theorem useFree_latched (s : State) : (useFree s).latched = s.latched := by rfl
@[simp] theorem useFree_heldLow (s : State) : (useFree s).heldLow = s.heldLow := by rfl
@[simp] theorem useFree_lports (s : State) : (useFree s).lports = s.lports := by rfl
@[simp] theorem useFree_sw (s : State) : (useFree s).sw = s.sw := by rfl
@[simp] theorem useFree_rx (s : State) : (useFree s).rx = s.rx := by rfl
@[simp] theorem useFree_toHut (s : State) : (useFree s).toHut = s.toHut := by rfl
@[simp] theorem useFree_mem (s : State) : (useFree s).mem = s.mem := by rfl
@[simp] theorem useFree_pages (s : State) : (useFree s).pages = s.pages := by rfl
@[simp] theorem useFree_reads (s : State) : (useFree s).reads = s.reads := by rfl
@[simp] theorem useFree_poison (s : State) : (useFree s).poison = s.poison := by rfl
@[simp] theorem useFree_xlt (s : State) : (useFree s).xlt = s.xlt := by rfl
@[simp] theorem useFree_dir (s : State) : (useFree s).dir = s.dir := by rfl
@[simp] theorem useFree_cmd (s : State) : (useFree s).cmd = s.cmd := by rfl
@[simp] theorem useFree_comps (s : State) : (useFree s).comps = s.comps := by rfl
@[simp] theorem useFree_sec (s : State) : (useFree s).sec = s.sec := by rfl
@[simp] theorem useFree_eng (s : State) : (useFree s).eng = s.eng := by rfl
@[simp] theorem useFree_haul (s : State) : (useFree s).haul = s.haul := by rfl
@[simp] theorem useFree_cards (s : State) : (useFree s).cards = s.cards := by rfl
@[simp] theorem useFree_flt (s : State) : (useFree s).flt = s.flt := by rfl
@[simp] theorem useFree_out (s : State) : (useFree s).out = s.out := by rfl
@[simp] theorem useFree_pending (s : State) : (useFree s).pending = s.pending := by rfl

@[simp] theorem setReg_dev (a v : Nat) (s : State) : (setReg a v s).dev = s.dev := by rfl
@[simp] theorem setReg_clock (a v : Nat) (s : State) : (setReg a v s).clock = s.clock := by rfl
@[simp] theorem setReg_ctrs (a v : Nat) (s : State) : (setReg a v s).ctrs = s.ctrs := by rfl
@[simp] theorem setReg_latched (a v : Nat) (s : State) : (setReg a v s).latched = s.latched := by rfl
@[simp] theorem setReg_heldLow (a v : Nat) (s : State) : (setReg a v s).heldLow = s.heldLow := by rfl
@[simp] theorem setReg_lports (a v : Nat) (s : State) : (setReg a v s).lports = s.lports := by rfl
@[simp] theorem setReg_sw (a v : Nat) (s : State) : (setReg a v s).sw = s.sw := by rfl
@[simp] theorem setReg_rx (a v : Nat) (s : State) : (setReg a v s).rx = s.rx := by rfl
@[simp] theorem setReg_toHut (a v : Nat) (s : State) : (setReg a v s).toHut = s.toHut := by rfl
@[simp] theorem setReg_mem (a v : Nat) (s : State) : (setReg a v s).mem = s.mem := by rfl
@[simp] theorem setReg_pages (a v : Nat) (s : State) : (setReg a v s).pages = s.pages := by rfl
@[simp] theorem setReg_reads (a v : Nat) (s : State) : (setReg a v s).reads = s.reads := by rfl
@[simp] theorem setReg_poison (a v : Nat) (s : State) : (setReg a v s).poison = s.poison := by rfl
@[simp] theorem setReg_xlt (a v : Nat) (s : State) : (setReg a v s).xlt = s.xlt := by rfl
@[simp] theorem setReg_dir (a v : Nat) (s : State) : (setReg a v s).dir = s.dir := by rfl
@[simp] theorem setReg_cmd (a v : Nat) (s : State) : (setReg a v s).cmd = s.cmd := by rfl
@[simp] theorem setReg_comps (a v : Nat) (s : State) : (setReg a v s).comps = s.comps := by rfl
@[simp] theorem setReg_sec (a v : Nat) (s : State) : (setReg a v s).sec = s.sec := by rfl
@[simp] theorem setReg_eng (a v : Nat) (s : State) : (setReg a v s).eng = s.eng := by rfl
@[simp] theorem setReg_haul (a v : Nat) (s : State) : (setReg a v s).haul = s.haul := by rfl
@[simp] theorem setReg_cards (a v : Nat) (s : State) : (setReg a v s).cards = s.cards := by rfl
@[simp] theorem setReg_flt (a v : Nat) (s : State) : (setReg a v s).flt = s.flt := by rfl
@[simp] theorem setReg_out (a v : Nat) (s : State) : (setReg a v s).out = s.out := by rfl
@[simp] theorem setReg_freeCtr (a v : Nat) (s : State) : (setReg a v s).freeCtr = s.freeCtr := by rfl
@[simp] theorem setReg_pending (a v : Nat) (s : State) : (setReg a v s).pending = s.pending := by rfl

@[simp] theorem countN_dev (a n : Nat) (s : State) : (countN a n s).dev = s.dev := by rfl
@[simp] theorem countN_clock (a n : Nat) (s : State) : (countN a n s).clock = s.clock := by rfl
@[simp] theorem countN_regs (a n : Nat) (s : State) : (countN a n s).regs = s.regs := by rfl
@[simp] theorem countN_latched (a n : Nat) (s : State) : (countN a n s).latched = s.latched := by rfl
@[simp] theorem countN_heldLow (a n : Nat) (s : State) : (countN a n s).heldLow = s.heldLow := by rfl
@[simp] theorem countN_lports (a n : Nat) (s : State) : (countN a n s).lports = s.lports := by rfl
@[simp] theorem countN_sw (a n : Nat) (s : State) : (countN a n s).sw = s.sw := by rfl
@[simp] theorem countN_rx (a n : Nat) (s : State) : (countN a n s).rx = s.rx := by rfl
@[simp] theorem countN_toHut (a n : Nat) (s : State) : (countN a n s).toHut = s.toHut := by rfl
@[simp] theorem countN_mem (a n : Nat) (s : State) : (countN a n s).mem = s.mem := by rfl
@[simp] theorem countN_pages (a n : Nat) (s : State) : (countN a n s).pages = s.pages := by rfl
@[simp] theorem countN_reads (a n : Nat) (s : State) : (countN a n s).reads = s.reads := by rfl
@[simp] theorem countN_poison (a n : Nat) (s : State) : (countN a n s).poison = s.poison := by rfl
@[simp] theorem countN_xlt (a n : Nat) (s : State) : (countN a n s).xlt = s.xlt := by rfl
@[simp] theorem countN_dir (a n : Nat) (s : State) : (countN a n s).dir = s.dir := by rfl
@[simp] theorem countN_cmd (a n : Nat) (s : State) : (countN a n s).cmd = s.cmd := by rfl
@[simp] theorem countN_comps (a n : Nat) (s : State) : (countN a n s).comps = s.comps := by rfl
@[simp] theorem countN_sec (a n : Nat) (s : State) : (countN a n s).sec = s.sec := by rfl
@[simp] theorem countN_eng (a n : Nat) (s : State) : (countN a n s).eng = s.eng := by rfl
@[simp] theorem countN_haul (a n : Nat) (s : State) : (countN a n s).haul = s.haul := by rfl
@[simp] theorem countN_cards (a n : Nat) (s : State) : (countN a n s).cards = s.cards := by rfl
@[simp] theorem countN_flt (a n : Nat) (s : State) : (countN a n s).flt = s.flt := by rfl
@[simp] theorem countN_out (a n : Nat) (s : State) : (countN a n s).out = s.out := by rfl
@[simp] theorem countN_freeCtr (a n : Nat) (s : State) : (countN a n s).freeCtr = s.freeCtr := by rfl
@[simp] theorem countN_pending (a n : Nat) (s : State) : (countN a n s).pending = s.pending := by rfl

@[simp] theorem count_dev (a : Nat) (s : State) : (count a s).dev = s.dev := by rfl
@[simp] theorem count_clock (a : Nat) (s : State) : (count a s).clock = s.clock := by rfl
@[simp] theorem count_regs (a : Nat) (s : State) : (count a s).regs = s.regs := by rfl
@[simp] theorem count_latched (a : Nat) (s : State) : (count a s).latched = s.latched := by rfl
@[simp] theorem count_heldLow (a : Nat) (s : State) : (count a s).heldLow = s.heldLow := by rfl
@[simp] theorem count_lports (a : Nat) (s : State) : (count a s).lports = s.lports := by rfl
@[simp] theorem count_sw (a : Nat) (s : State) : (count a s).sw = s.sw := by rfl
@[simp] theorem count_rx (a : Nat) (s : State) : (count a s).rx = s.rx := by rfl
@[simp] theorem count_toHut (a : Nat) (s : State) : (count a s).toHut = s.toHut := by rfl
@[simp] theorem count_mem (a : Nat) (s : State) : (count a s).mem = s.mem := by rfl
@[simp] theorem count_pages (a : Nat) (s : State) : (count a s).pages = s.pages := by rfl
@[simp] theorem count_reads (a : Nat) (s : State) : (count a s).reads = s.reads := by rfl
@[simp] theorem count_poison (a : Nat) (s : State) : (count a s).poison = s.poison := by rfl
@[simp] theorem count_xlt (a : Nat) (s : State) : (count a s).xlt = s.xlt := by rfl
@[simp] theorem count_dir (a : Nat) (s : State) : (count a s).dir = s.dir := by rfl
@[simp] theorem count_cmd (a : Nat) (s : State) : (count a s).cmd = s.cmd := by rfl
@[simp] theorem count_comps (a : Nat) (s : State) : (count a s).comps = s.comps := by rfl
@[simp] theorem count_sec (a : Nat) (s : State) : (count a s).sec = s.sec := by rfl
@[simp] theorem count_eng (a : Nat) (s : State) : (count a s).eng = s.eng := by rfl
@[simp] theorem count_haul (a : Nat) (s : State) : (count a s).haul = s.haul := by rfl
@[simp] theorem count_cards (a : Nat) (s : State) : (count a s).cards = s.cards := by rfl
@[simp] theorem count_flt (a : Nat) (s : State) : (count a s).flt = s.flt := by rfl
@[simp] theorem count_out (a : Nat) (s : State) : (count a s).out = s.out := by rfl
@[simp] theorem count_freeCtr (a : Nat) (s : State) : (count a s).freeCtr = s.freeCtr := by rfl
@[simp] theorem count_pending (a : Nat) (s : State) : (count a s).pending = s.pending := by rfl

@[simp] theorem attn_dev (b : Nat) (s : State) : (attn b s).dev = s.dev := by rfl
@[simp] theorem attn_clock (b : Nat) (s : State) : (attn b s).clock = s.clock := by rfl
@[simp] theorem attn_regs (b : Nat) (s : State) : (attn b s).regs = s.regs := by rfl
@[simp] theorem attn_ctrs (b : Nat) (s : State) : (attn b s).ctrs = s.ctrs := by rfl
@[simp] theorem attn_latched (b : Nat) (s : State) : (attn b s).latched = s.latched := by rfl
@[simp] theorem attn_heldLow (b : Nat) (s : State) : (attn b s).heldLow = s.heldLow := by rfl
@[simp] theorem attn_lports (b : Nat) (s : State) : (attn b s).lports = s.lports := by rfl
@[simp] theorem attn_sw (b : Nat) (s : State) : (attn b s).sw = s.sw := by rfl
@[simp] theorem attn_rx (b : Nat) (s : State) : (attn b s).rx = s.rx := by rfl
@[simp] theorem attn_toHut (b : Nat) (s : State) : (attn b s).toHut = s.toHut := by rfl
@[simp] theorem attn_mem (b : Nat) (s : State) : (attn b s).mem = s.mem := by rfl
@[simp] theorem attn_pages (b : Nat) (s : State) : (attn b s).pages = s.pages := by rfl
@[simp] theorem attn_reads (b : Nat) (s : State) : (attn b s).reads = s.reads := by rfl
@[simp] theorem attn_poison (b : Nat) (s : State) : (attn b s).poison = s.poison := by rfl
@[simp] theorem attn_xlt (b : Nat) (s : State) : (attn b s).xlt = s.xlt := by rfl
@[simp] theorem attn_dir (b : Nat) (s : State) : (attn b s).dir = s.dir := by rfl
@[simp] theorem attn_comps (b : Nat) (s : State) : (attn b s).comps = s.comps := by rfl
@[simp] theorem attn_sec (b : Nat) (s : State) : (attn b s).sec = s.sec := by rfl
@[simp] theorem attn_eng (b : Nat) (s : State) : (attn b s).eng = s.eng := by rfl
@[simp] theorem attn_haul (b : Nat) (s : State) : (attn b s).haul = s.haul := by rfl
@[simp] theorem attn_cards (b : Nat) (s : State) : (attn b s).cards = s.cards := by rfl
@[simp] theorem attn_flt (b : Nat) (s : State) : (attn b s).flt = s.flt := by rfl
@[simp] theorem attn_out (b : Nat) (s : State) : (attn b s).out = s.out := by rfl
@[simp] theorem attn_freeCtr (b : Nat) (s : State) : (attn b s).freeCtr = s.freeCtr := by rfl
@[simp] theorem attn_pending (b : Nat) (s : State) : (attn b s).pending = s.pending := by rfl

@[simp] theorem setDevState_clock (d : DevState) (s : State) : (setDevState d s).clock = s.clock := by unfold setDevState; split <;> rfl
@[simp] theorem setDevState_regs (d : DevState) (s : State) : (setDevState d s).regs = s.regs := by unfold setDevState; split <;> rfl
@[simp] theorem setDevState_ctrs (d : DevState) (s : State) : (setDevState d s).ctrs = s.ctrs := by unfold setDevState; split <;> rfl
@[simp] theorem setDevState_latched (d : DevState) (s : State) : (setDevState d s).latched = s.latched := by unfold setDevState; split <;> rfl
@[simp] theorem setDevState_heldLow (d : DevState) (s : State) : (setDevState d s).heldLow = s.heldLow := by unfold setDevState; split <;> rfl
@[simp] theorem setDevState_lports (d : DevState) (s : State) : (setDevState d s).lports = s.lports := by unfold setDevState; split <;> rfl
@[simp] theorem setDevState_sw (d : DevState) (s : State) : (setDevState d s).sw = s.sw := by unfold setDevState; split <;> rfl
@[simp] theorem setDevState_rx (d : DevState) (s : State) : (setDevState d s).rx = s.rx := by unfold setDevState; split <;> rfl
@[simp] theorem setDevState_toHut (d : DevState) (s : State) : (setDevState d s).toHut = s.toHut := by unfold setDevState; split <;> rfl
@[simp] theorem setDevState_mem (d : DevState) (s : State) : (setDevState d s).mem = s.mem := by unfold setDevState; split <;> rfl
@[simp] theorem setDevState_pages (d : DevState) (s : State) : (setDevState d s).pages = s.pages := by unfold setDevState; split <;> rfl
@[simp] theorem setDevState_reads (d : DevState) (s : State) : (setDevState d s).reads = s.reads := by unfold setDevState; split <;> rfl
@[simp] theorem setDevState_poison (d : DevState) (s : State) : (setDevState d s).poison = s.poison := by unfold setDevState; split <;> rfl
@[simp] theorem setDevState_xlt (d : DevState) (s : State) : (setDevState d s).xlt = s.xlt := by unfold setDevState; split <;> rfl
@[simp] theorem setDevState_dir (d : DevState) (s : State) : (setDevState d s).dir = s.dir := by unfold setDevState; split <;> rfl
@[simp] theorem setDevState_comps (d : DevState) (s : State) : (setDevState d s).comps = s.comps := by unfold setDevState; split <;> rfl
@[simp] theorem setDevState_sec (d : DevState) (s : State) : (setDevState d s).sec = s.sec := by unfold setDevState; split <;> rfl
@[simp] theorem setDevState_eng (d : DevState) (s : State) : (setDevState d s).eng = s.eng := by unfold setDevState; split <;> rfl
@[simp] theorem setDevState_haul (d : DevState) (s : State) : (setDevState d s).haul = s.haul := by unfold setDevState; split <;> rfl
@[simp] theorem setDevState_cards (d : DevState) (s : State) : (setDevState d s).cards = s.cards := by unfold setDevState; split <;> rfl
@[simp] theorem setDevState_flt (d : DevState) (s : State) : (setDevState d s).flt = s.flt := by unfold setDevState; split <;> rfl
@[simp] theorem setDevState_out (d : DevState) (s : State) : (setDevState d s).out = s.out := by unfold setDevState; split <;> rfl
@[simp] theorem setDevState_freeCtr (d : DevState) (s : State) : (setDevState d s).freeCtr = s.freeCtr := by unfold setDevState; split <;> rfl
@[simp] theorem setDevState_pending (d : DevState) (s : State) : (setDevState d s).pending = s.pending := by unfold setDevState; split <;> rfl

@[simp] theorem poisonAt_dev (a : Nat) (s : State) : (poisonAt a s).dev = s.dev := by unfold poisonAt; dsimp only; split <;> rfl
@[simp] theorem poisonAt_clock (a : Nat) (s : State) : (poisonAt a s).clock = s.clock := by unfold poisonAt; dsimp only; split <;> rfl
@[simp] theorem poisonAt_regs (a : Nat) (s : State) : (poisonAt a s).regs = s.regs := by unfold poisonAt; dsimp only; split <;> rfl
@[simp] theorem poisonAt_ctrs (a : Nat) (s : State) : (poisonAt a s).ctrs = s.ctrs := by unfold poisonAt; dsimp only; split <;> rfl
@[simp] theorem poisonAt_latched (a : Nat) (s : State) : (poisonAt a s).latched = s.latched := by unfold poisonAt; dsimp only; split <;> rfl
@[simp] theorem poisonAt_heldLow (a : Nat) (s : State) : (poisonAt a s).heldLow = s.heldLow := by unfold poisonAt; dsimp only; split <;> rfl
@[simp] theorem poisonAt_lports (a : Nat) (s : State) : (poisonAt a s).lports = s.lports := by unfold poisonAt; dsimp only; split <;> rfl
@[simp] theorem poisonAt_sw (a : Nat) (s : State) : (poisonAt a s).sw = s.sw := by unfold poisonAt; dsimp only; split <;> rfl
@[simp] theorem poisonAt_rx (a : Nat) (s : State) : (poisonAt a s).rx = s.rx := by unfold poisonAt; dsimp only; split <;> rfl
@[simp] theorem poisonAt_toHut (a : Nat) (s : State) : (poisonAt a s).toHut = s.toHut := by unfold poisonAt; dsimp only; split <;> rfl
@[simp] theorem poisonAt_mem (a : Nat) (s : State) : (poisonAt a s).mem = s.mem := by unfold poisonAt; dsimp only; split <;> rfl
@[simp] theorem poisonAt_pages (a : Nat) (s : State) : (poisonAt a s).pages = s.pages := by unfold poisonAt; dsimp only; split <;> rfl
@[simp] theorem poisonAt_reads (a : Nat) (s : State) : (poisonAt a s).reads = s.reads := by unfold poisonAt; dsimp only; split <;> rfl
@[simp] theorem poisonAt_xlt (a : Nat) (s : State) : (poisonAt a s).xlt = s.xlt := by unfold poisonAt; dsimp only; split <;> rfl
@[simp] theorem poisonAt_dir (a : Nat) (s : State) : (poisonAt a s).dir = s.dir := by unfold poisonAt; dsimp only; split <;> rfl
@[simp] theorem poisonAt_cmd (a : Nat) (s : State) : (poisonAt a s).cmd = s.cmd := by unfold poisonAt; dsimp only; split <;> rfl
@[simp] theorem poisonAt_comps (a : Nat) (s : State) : (poisonAt a s).comps = s.comps := by unfold poisonAt; dsimp only; split <;> rfl
@[simp] theorem poisonAt_sec (a : Nat) (s : State) : (poisonAt a s).sec = s.sec := by unfold poisonAt; dsimp only; split <;> rfl
@[simp] theorem poisonAt_eng (a : Nat) (s : State) : (poisonAt a s).eng = s.eng := by unfold poisonAt; dsimp only; split <;> rfl
@[simp] theorem poisonAt_haul (a : Nat) (s : State) : (poisonAt a s).haul = s.haul := by unfold poisonAt; dsimp only; split <;> rfl
@[simp] theorem poisonAt_cards (a : Nat) (s : State) : (poisonAt a s).cards = s.cards := by unfold poisonAt; dsimp only; split <;> rfl
@[simp] theorem poisonAt_flt (a : Nat) (s : State) : (poisonAt a s).flt = s.flt := by unfold poisonAt; dsimp only; split <;> rfl
@[simp] theorem poisonAt_out (a : Nat) (s : State) : (poisonAt a s).out = s.out := by unfold poisonAt; dsimp only; split <;> rfl
@[simp] theorem poisonAt_freeCtr (a : Nat) (s : State) : (poisonAt a s).freeCtr = s.freeCtr := by unfold poisonAt; dsimp only; split <;> rfl
@[simp] theorem poisonAt_pending (a : Nat) (s : State) : (poisonAt a s).pending = s.pending := by unfold poisonAt; dsimp only; split <;> rfl

@[simp] theorem unpoison_dev (a n : Nat) (s : State) : (unpoison a n s).dev = s.dev := by rfl
@[simp] theorem unpoison_clock (a n : Nat) (s : State) : (unpoison a n s).clock = s.clock := by rfl
@[simp] theorem unpoison_regs (a n : Nat) (s : State) : (unpoison a n s).regs = s.regs := by rfl
@[simp] theorem unpoison_ctrs (a n : Nat) (s : State) : (unpoison a n s).ctrs = s.ctrs := by rfl
@[simp] theorem unpoison_latched (a n : Nat) (s : State) : (unpoison a n s).latched = s.latched := by rfl
@[simp] theorem unpoison_heldLow (a n : Nat) (s : State) : (unpoison a n s).heldLow = s.heldLow := by rfl
@[simp] theorem unpoison_lports (a n : Nat) (s : State) : (unpoison a n s).lports = s.lports := by rfl
@[simp] theorem unpoison_sw (a n : Nat) (s : State) : (unpoison a n s).sw = s.sw := by rfl
@[simp] theorem unpoison_rx (a n : Nat) (s : State) : (unpoison a n s).rx = s.rx := by rfl
@[simp] theorem unpoison_toHut (a n : Nat) (s : State) : (unpoison a n s).toHut = s.toHut := by rfl
@[simp] theorem unpoison_mem (a n : Nat) (s : State) : (unpoison a n s).mem = s.mem := by rfl
@[simp] theorem unpoison_pages (a n : Nat) (s : State) : (unpoison a n s).pages = s.pages := by rfl
@[simp] theorem unpoison_reads (a n : Nat) (s : State) : (unpoison a n s).reads = s.reads := by rfl
@[simp] theorem unpoison_xlt (a n : Nat) (s : State) : (unpoison a n s).xlt = s.xlt := by rfl
@[simp] theorem unpoison_dir (a n : Nat) (s : State) : (unpoison a n s).dir = s.dir := by rfl
@[simp] theorem unpoison_cmd (a n : Nat) (s : State) : (unpoison a n s).cmd = s.cmd := by rfl
@[simp] theorem unpoison_comps (a n : Nat) (s : State) : (unpoison a n s).comps = s.comps := by rfl
@[simp] theorem unpoison_sec (a n : Nat) (s : State) : (unpoison a n s).sec = s.sec := by rfl
@[simp] theorem unpoison_eng (a n : Nat) (s : State) : (unpoison a n s).eng = s.eng := by rfl
@[simp] theorem unpoison_haul (a n : Nat) (s : State) : (unpoison a n s).haul = s.haul := by rfl
@[simp] theorem unpoison_cards (a n : Nat) (s : State) : (unpoison a n s).cards = s.cards := by rfl
@[simp] theorem unpoison_flt (a n : Nat) (s : State) : (unpoison a n s).flt = s.flt := by rfl
@[simp] theorem unpoison_out (a n : Nat) (s : State) : (unpoison a n s).out = s.out := by rfl
@[simp] theorem unpoison_freeCtr (a n : Nat) (s : State) : (unpoison a n s).freeCtr = s.freeCtr := by rfl
@[simp] theorem unpoison_pending (a n : Nat) (s : State) : (unpoison a n s).pending = s.pending := by rfl

@[simp] theorem hbmWrite_dev (a : Nat) (bs : List Byte) (s : State) : (hbmWrite a bs s).dev = s.dev := by rfl
@[simp] theorem hbmWrite_clock (a : Nat) (bs : List Byte) (s : State) : (hbmWrite a bs s).clock = s.clock := by rfl
@[simp] theorem hbmWrite_regs (a : Nat) (bs : List Byte) (s : State) : (hbmWrite a bs s).regs = s.regs := by rfl
@[simp] theorem hbmWrite_ctrs (a : Nat) (bs : List Byte) (s : State) : (hbmWrite a bs s).ctrs = s.ctrs := by rfl
@[simp] theorem hbmWrite_latched (a : Nat) (bs : List Byte) (s : State) : (hbmWrite a bs s).latched = s.latched := by rfl
@[simp] theorem hbmWrite_heldLow (a : Nat) (bs : List Byte) (s : State) : (hbmWrite a bs s).heldLow = s.heldLow := by rfl
@[simp] theorem hbmWrite_lports (a : Nat) (bs : List Byte) (s : State) : (hbmWrite a bs s).lports = s.lports := by rfl
@[simp] theorem hbmWrite_sw (a : Nat) (bs : List Byte) (s : State) : (hbmWrite a bs s).sw = s.sw := by rfl
@[simp] theorem hbmWrite_rx (a : Nat) (bs : List Byte) (s : State) : (hbmWrite a bs s).rx = s.rx := by rfl
@[simp] theorem hbmWrite_toHut (a : Nat) (bs : List Byte) (s : State) : (hbmWrite a bs s).toHut = s.toHut := by rfl
@[simp] theorem hbmWrite_pages (a : Nat) (bs : List Byte) (s : State) : (hbmWrite a bs s).pages = s.pages := by rfl
@[simp] theorem hbmWrite_reads (a : Nat) (bs : List Byte) (s : State) : (hbmWrite a bs s).reads = s.reads := by rfl
@[simp] theorem hbmWrite_xlt (a : Nat) (bs : List Byte) (s : State) : (hbmWrite a bs s).xlt = s.xlt := by rfl
@[simp] theorem hbmWrite_dir (a : Nat) (bs : List Byte) (s : State) : (hbmWrite a bs s).dir = s.dir := by rfl
@[simp] theorem hbmWrite_cmd (a : Nat) (bs : List Byte) (s : State) : (hbmWrite a bs s).cmd = s.cmd := by rfl
@[simp] theorem hbmWrite_comps (a : Nat) (bs : List Byte) (s : State) : (hbmWrite a bs s).comps = s.comps := by rfl
@[simp] theorem hbmWrite_sec (a : Nat) (bs : List Byte) (s : State) : (hbmWrite a bs s).sec = s.sec := by rfl
@[simp] theorem hbmWrite_eng (a : Nat) (bs : List Byte) (s : State) : (hbmWrite a bs s).eng = s.eng := by rfl
@[simp] theorem hbmWrite_haul (a : Nat) (bs : List Byte) (s : State) : (hbmWrite a bs s).haul = s.haul := by rfl
@[simp] theorem hbmWrite_cards (a : Nat) (bs : List Byte) (s : State) : (hbmWrite a bs s).cards = s.cards := by rfl
@[simp] theorem hbmWrite_flt (a : Nat) (bs : List Byte) (s : State) : (hbmWrite a bs s).flt = s.flt := by rfl
@[simp] theorem hbmWrite_out (a : Nat) (bs : List Byte) (s : State) : (hbmWrite a bs s).out = s.out := by rfl
@[simp] theorem hbmWrite_freeCtr (a : Nat) (bs : List Byte) (s : State) : (hbmWrite a bs s).freeCtr = s.freeCtr := by rfl
@[simp] theorem hbmWrite_pending (a : Nat) (bs : List Byte) (s : State) : (hbmWrite a bs s).pending = s.pending := by rfl

@[simp] theorem setLport_dev (lp : Nat) (f : LPort → LPort) (s : State) : (setLport lp f s).dev = s.dev := by rfl
@[simp] theorem setLport_clock (lp : Nat) (f : LPort → LPort) (s : State) : (setLport lp f s).clock = s.clock := by rfl
@[simp] theorem setLport_regs (lp : Nat) (f : LPort → LPort) (s : State) : (setLport lp f s).regs = s.regs := by rfl
@[simp] theorem setLport_ctrs (lp : Nat) (f : LPort → LPort) (s : State) : (setLport lp f s).ctrs = s.ctrs := by rfl
@[simp] theorem setLport_latched (lp : Nat) (f : LPort → LPort) (s : State) : (setLport lp f s).latched = s.latched := by rfl
@[simp] theorem setLport_heldLow (lp : Nat) (f : LPort → LPort) (s : State) : (setLport lp f s).heldLow = s.heldLow := by rfl
@[simp] theorem setLport_sw (lp : Nat) (f : LPort → LPort) (s : State) : (setLport lp f s).sw = s.sw := by rfl
@[simp] theorem setLport_rx (lp : Nat) (f : LPort → LPort) (s : State) : (setLport lp f s).rx = s.rx := by rfl
@[simp] theorem setLport_toHut (lp : Nat) (f : LPort → LPort) (s : State) : (setLport lp f s).toHut = s.toHut := by rfl
@[simp] theorem setLport_mem (lp : Nat) (f : LPort → LPort) (s : State) : (setLport lp f s).mem = s.mem := by rfl
@[simp] theorem setLport_pages (lp : Nat) (f : LPort → LPort) (s : State) : (setLport lp f s).pages = s.pages := by rfl
@[simp] theorem setLport_reads (lp : Nat) (f : LPort → LPort) (s : State) : (setLport lp f s).reads = s.reads := by rfl
@[simp] theorem setLport_poison (lp : Nat) (f : LPort → LPort) (s : State) : (setLport lp f s).poison = s.poison := by rfl
@[simp] theorem setLport_xlt (lp : Nat) (f : LPort → LPort) (s : State) : (setLport lp f s).xlt = s.xlt := by rfl
@[simp] theorem setLport_dir (lp : Nat) (f : LPort → LPort) (s : State) : (setLport lp f s).dir = s.dir := by rfl
@[simp] theorem setLport_cmd (lp : Nat) (f : LPort → LPort) (s : State) : (setLport lp f s).cmd = s.cmd := by rfl
@[simp] theorem setLport_comps (lp : Nat) (f : LPort → LPort) (s : State) : (setLport lp f s).comps = s.comps := by rfl
@[simp] theorem setLport_sec (lp : Nat) (f : LPort → LPort) (s : State) : (setLport lp f s).sec = s.sec := by rfl
@[simp] theorem setLport_eng (lp : Nat) (f : LPort → LPort) (s : State) : (setLport lp f s).eng = s.eng := by rfl
@[simp] theorem setLport_haul (lp : Nat) (f : LPort → LPort) (s : State) : (setLport lp f s).haul = s.haul := by rfl
@[simp] theorem setLport_cards (lp : Nat) (f : LPort → LPort) (s : State) : (setLport lp f s).cards = s.cards := by rfl
@[simp] theorem setLport_flt (lp : Nat) (f : LPort → LPort) (s : State) : (setLport lp f s).flt = s.flt := by rfl
@[simp] theorem setLport_out (lp : Nat) (f : LPort → LPort) (s : State) : (setLport lp f s).out = s.out := by rfl
@[simp] theorem setLport_freeCtr (lp : Nat) (f : LPort → LPort) (s : State) : (setLport lp f s).freeCtr = s.freeCtr := by rfl
@[simp] theorem setLport_pending (lp : Nat) (f : LPort → LPort) (s : State) : (setLport lp f s).pending = s.pending := by rfl

@[simp] theorem enqueue_dev (f : VFrame) (s : State) : (enqueue f s).dev = s.dev := by rfl
@[simp] theorem enqueue_clock (f : VFrame) (s : State) : (enqueue f s).clock = s.clock := by rfl
@[simp] theorem enqueue_regs (f : VFrame) (s : State) : (enqueue f s).regs = s.regs := by rfl
@[simp] theorem enqueue_ctrs (f : VFrame) (s : State) : (enqueue f s).ctrs = s.ctrs := by rfl
@[simp] theorem enqueue_latched (f : VFrame) (s : State) : (enqueue f s).latched = s.latched := by rfl
@[simp] theorem enqueue_heldLow (f : VFrame) (s : State) : (enqueue f s).heldLow = s.heldLow := by rfl
@[simp] theorem enqueue_lports (f : VFrame) (s : State) : (enqueue f s).lports = s.lports := by rfl
@[simp] theorem enqueue_rx (f : VFrame) (s : State) : (enqueue f s).rx = s.rx := by rfl
@[simp] theorem enqueue_toHut (f : VFrame) (s : State) : (enqueue f s).toHut = s.toHut := by rfl
@[simp] theorem enqueue_mem (f : VFrame) (s : State) : (enqueue f s).mem = s.mem := by rfl
@[simp] theorem enqueue_pages (f : VFrame) (s : State) : (enqueue f s).pages = s.pages := by rfl
@[simp] theorem enqueue_reads (f : VFrame) (s : State) : (enqueue f s).reads = s.reads := by rfl
@[simp] theorem enqueue_poison (f : VFrame) (s : State) : (enqueue f s).poison = s.poison := by rfl
@[simp] theorem enqueue_xlt (f : VFrame) (s : State) : (enqueue f s).xlt = s.xlt := by rfl
@[simp] theorem enqueue_dir (f : VFrame) (s : State) : (enqueue f s).dir = s.dir := by rfl
@[simp] theorem enqueue_cmd (f : VFrame) (s : State) : (enqueue f s).cmd = s.cmd := by rfl
@[simp] theorem enqueue_comps (f : VFrame) (s : State) : (enqueue f s).comps = s.comps := by rfl
@[simp] theorem enqueue_sec (f : VFrame) (s : State) : (enqueue f s).sec = s.sec := by rfl
@[simp] theorem enqueue_eng (f : VFrame) (s : State) : (enqueue f s).eng = s.eng := by rfl
@[simp] theorem enqueue_haul (f : VFrame) (s : State) : (enqueue f s).haul = s.haul := by rfl
@[simp] theorem enqueue_cards (f : VFrame) (s : State) : (enqueue f s).cards = s.cards := by rfl
@[simp] theorem enqueue_flt (f : VFrame) (s : State) : (enqueue f s).flt = s.flt := by rfl
@[simp] theorem enqueue_out (f : VFrame) (s : State) : (enqueue f s).out = s.out := by rfl
@[simp] theorem enqueue_freeCtr (f : VFrame) (s : State) : (enqueue f s).freeCtr = s.freeCtr := by rfl
@[simp] theorem enqueue_pending (f : VFrame) (s : State) : (enqueue f s).pending = s.pending := by rfl

@[simp] theorem sendFrom_dev (inp lp tc : Nat) (p : Kmt) (g : Gate) (s : State) : (sendFrom inp lp tc p g s).dev = s.dev := by rfl
@[simp] theorem sendFrom_clock (inp lp tc : Nat) (p : Kmt) (g : Gate) (s : State) : (sendFrom inp lp tc p g s).clock = s.clock := by rfl
@[simp] theorem sendFrom_regs (inp lp tc : Nat) (p : Kmt) (g : Gate) (s : State) : (sendFrom inp lp tc p g s).regs = s.regs := by rfl
@[simp] theorem sendFrom_ctrs (inp lp tc : Nat) (p : Kmt) (g : Gate) (s : State) : (sendFrom inp lp tc p g s).ctrs = s.ctrs := by rfl
@[simp] theorem sendFrom_latched (inp lp tc : Nat) (p : Kmt) (g : Gate) (s : State) : (sendFrom inp lp tc p g s).latched = s.latched := by rfl
@[simp] theorem sendFrom_heldLow (inp lp tc : Nat) (p : Kmt) (g : Gate) (s : State) : (sendFrom inp lp tc p g s).heldLow = s.heldLow := by rfl
@[simp] theorem sendFrom_lports (inp lp tc : Nat) (p : Kmt) (g : Gate) (s : State) : (sendFrom inp lp tc p g s).lports = s.lports := by rfl
@[simp] theorem sendFrom_rx (inp lp tc : Nat) (p : Kmt) (g : Gate) (s : State) : (sendFrom inp lp tc p g s).rx = s.rx := by rfl
@[simp] theorem sendFrom_toHut (inp lp tc : Nat) (p : Kmt) (g : Gate) (s : State) : (sendFrom inp lp tc p g s).toHut = s.toHut := by rfl
@[simp] theorem sendFrom_mem (inp lp tc : Nat) (p : Kmt) (g : Gate) (s : State) : (sendFrom inp lp tc p g s).mem = s.mem := by rfl
@[simp] theorem sendFrom_pages (inp lp tc : Nat) (p : Kmt) (g : Gate) (s : State) : (sendFrom inp lp tc p g s).pages = s.pages := by rfl
@[simp] theorem sendFrom_reads (inp lp tc : Nat) (p : Kmt) (g : Gate) (s : State) : (sendFrom inp lp tc p g s).reads = s.reads := by rfl
@[simp] theorem sendFrom_poison (inp lp tc : Nat) (p : Kmt) (g : Gate) (s : State) : (sendFrom inp lp tc p g s).poison = s.poison := by rfl
@[simp] theorem sendFrom_xlt (inp lp tc : Nat) (p : Kmt) (g : Gate) (s : State) : (sendFrom inp lp tc p g s).xlt = s.xlt := by rfl
@[simp] theorem sendFrom_dir (inp lp tc : Nat) (p : Kmt) (g : Gate) (s : State) : (sendFrom inp lp tc p g s).dir = s.dir := by rfl
@[simp] theorem sendFrom_cmd (inp lp tc : Nat) (p : Kmt) (g : Gate) (s : State) : (sendFrom inp lp tc p g s).cmd = s.cmd := by rfl
@[simp] theorem sendFrom_comps (inp lp tc : Nat) (p : Kmt) (g : Gate) (s : State) : (sendFrom inp lp tc p g s).comps = s.comps := by rfl
@[simp] theorem sendFrom_sec (inp lp tc : Nat) (p : Kmt) (g : Gate) (s : State) : (sendFrom inp lp tc p g s).sec = s.sec := by rfl
@[simp] theorem sendFrom_eng (inp lp tc : Nat) (p : Kmt) (g : Gate) (s : State) : (sendFrom inp lp tc p g s).eng = s.eng := by rfl
@[simp] theorem sendFrom_haul (inp lp tc : Nat) (p : Kmt) (g : Gate) (s : State) : (sendFrom inp lp tc p g s).haul = s.haul := by rfl
@[simp] theorem sendFrom_cards (inp lp tc : Nat) (p : Kmt) (g : Gate) (s : State) : (sendFrom inp lp tc p g s).cards = s.cards := by rfl
@[simp] theorem sendFrom_flt (inp lp tc : Nat) (p : Kmt) (g : Gate) (s : State) : (sendFrom inp lp tc p g s).flt = s.flt := by rfl
@[simp] theorem sendFrom_out (inp lp tc : Nat) (p : Kmt) (g : Gate) (s : State) : (sendFrom inp lp tc p g s).out = s.out := by rfl
@[simp] theorem sendFrom_freeCtr (inp lp tc : Nat) (p : Kmt) (g : Gate) (s : State) : (sendFrom inp lp tc p g s).freeCtr = s.freeCtr := by rfl
@[simp] theorem sendFrom_pending (inp lp tc : Nat) (p : Kmt) (g : Gate) (s : State) : (sendFrom inp lp tc p g s).pending = s.pending := by rfl

@[simp] theorem setRing_dev (r : Ring) (s : State) : (setRing r s).dev = s.dev := by rfl
@[simp] theorem setRing_clock (r : Ring) (s : State) : (setRing r s).clock = s.clock := by rfl
@[simp] theorem setRing_regs (r : Ring) (s : State) : (setRing r s).regs = s.regs := by rfl
@[simp] theorem setRing_ctrs (r : Ring) (s : State) : (setRing r s).ctrs = s.ctrs := by rfl
@[simp] theorem setRing_latched (r : Ring) (s : State) : (setRing r s).latched = s.latched := by rfl
@[simp] theorem setRing_heldLow (r : Ring) (s : State) : (setRing r s).heldLow = s.heldLow := by rfl
@[simp] theorem setRing_lports (r : Ring) (s : State) : (setRing r s).lports = s.lports := by rfl
@[simp] theorem setRing_sw (r : Ring) (s : State) : (setRing r s).sw = s.sw := by rfl
@[simp] theorem setRing_rx (r : Ring) (s : State) : (setRing r s).rx = s.rx := by rfl
@[simp] theorem setRing_toHut (r : Ring) (s : State) : (setRing r s).toHut = s.toHut := by rfl
@[simp] theorem setRing_mem (r : Ring) (s : State) : (setRing r s).mem = s.mem := by rfl
@[simp] theorem setRing_pages (r : Ring) (s : State) : (setRing r s).pages = s.pages := by rfl
@[simp] theorem setRing_reads (r : Ring) (s : State) : (setRing r s).reads = s.reads := by rfl
@[simp] theorem setRing_poison (r : Ring) (s : State) : (setRing r s).poison = s.poison := by rfl
@[simp] theorem setRing_xlt (r : Ring) (s : State) : (setRing r s).xlt = s.xlt := by rfl
@[simp] theorem setRing_dir (r : Ring) (s : State) : (setRing r s).dir = s.dir := by rfl
@[simp] theorem setRing_comps (r : Ring) (s : State) : (setRing r s).comps = s.comps := by rfl
@[simp] theorem setRing_sec (r : Ring) (s : State) : (setRing r s).sec = s.sec := by rfl
@[simp] theorem setRing_eng (r : Ring) (s : State) : (setRing r s).eng = s.eng := by rfl
@[simp] theorem setRing_haul (r : Ring) (s : State) : (setRing r s).haul = s.haul := by rfl
@[simp] theorem setRing_cards (r : Ring) (s : State) : (setRing r s).cards = s.cards := by rfl
@[simp] theorem setRing_flt (r : Ring) (s : State) : (setRing r s).flt = s.flt := by rfl
@[simp] theorem setRing_out (r : Ring) (s : State) : (setRing r s).out = s.out := by rfl
@[simp] theorem setRing_freeCtr (r : Ring) (s : State) : (setRing r s).freeCtr = s.freeCtr := by rfl
@[simp] theorem setRing_pending (r : Ring) (s : State) : (setRing r s).pending = s.pending := by rfl

@[simp] theorem setLane_dev (c : Nat) (f : Lane → Lane) (s : State) : (setLane c f s).dev = s.dev := by rfl
@[simp] theorem setLane_clock (c : Nat) (f : Lane → Lane) (s : State) : (setLane c f s).clock = s.clock := by rfl
@[simp] theorem setLane_regs (c : Nat) (f : Lane → Lane) (s : State) : (setLane c f s).regs = s.regs := by rfl
@[simp] theorem setLane_ctrs (c : Nat) (f : Lane → Lane) (s : State) : (setLane c f s).ctrs = s.ctrs := by rfl
@[simp] theorem setLane_latched (c : Nat) (f : Lane → Lane) (s : State) : (setLane c f s).latched = s.latched := by rfl
@[simp] theorem setLane_heldLow (c : Nat) (f : Lane → Lane) (s : State) : (setLane c f s).heldLow = s.heldLow := by rfl
@[simp] theorem setLane_lports (c : Nat) (f : Lane → Lane) (s : State) : (setLane c f s).lports = s.lports := by rfl
@[simp] theorem setLane_sw (c : Nat) (f : Lane → Lane) (s : State) : (setLane c f s).sw = s.sw := by rfl
@[simp] theorem setLane_rx (c : Nat) (f : Lane → Lane) (s : State) : (setLane c f s).rx = s.rx := by rfl
@[simp] theorem setLane_toHut (c : Nat) (f : Lane → Lane) (s : State) : (setLane c f s).toHut = s.toHut := by rfl
@[simp] theorem setLane_mem (c : Nat) (f : Lane → Lane) (s : State) : (setLane c f s).mem = s.mem := by rfl
@[simp] theorem setLane_pages (c : Nat) (f : Lane → Lane) (s : State) : (setLane c f s).pages = s.pages := by rfl
@[simp] theorem setLane_reads (c : Nat) (f : Lane → Lane) (s : State) : (setLane c f s).reads = s.reads := by rfl
@[simp] theorem setLane_poison (c : Nat) (f : Lane → Lane) (s : State) : (setLane c f s).poison = s.poison := by rfl
@[simp] theorem setLane_xlt (c : Nat) (f : Lane → Lane) (s : State) : (setLane c f s).xlt = s.xlt := by rfl
@[simp] theorem setLane_dir (c : Nat) (f : Lane → Lane) (s : State) : (setLane c f s).dir = s.dir := by rfl
@[simp] theorem setLane_cmd (c : Nat) (f : Lane → Lane) (s : State) : (setLane c f s).cmd = s.cmd := by rfl
@[simp] theorem setLane_comps (c : Nat) (f : Lane → Lane) (s : State) : (setLane c f s).comps = s.comps := by rfl
@[simp] theorem setLane_sec (c : Nat) (f : Lane → Lane) (s : State) : (setLane c f s).sec = s.sec := by rfl
@[simp] theorem setLane_eng (c : Nat) (f : Lane → Lane) (s : State) : (setLane c f s).eng = s.eng := by rfl
@[simp] theorem setLane_haul (c : Nat) (f : Lane → Lane) (s : State) : (setLane c f s).haul = s.haul := by rfl
@[simp] theorem setLane_cards (c : Nat) (f : Lane → Lane) (s : State) : (setLane c f s).cards = s.cards := by rfl
@[simp] theorem setLane_out (c : Nat) (f : Lane → Lane) (s : State) : (setLane c f s).out = s.out := by rfl
@[simp] theorem setLane_freeCtr (c : Nat) (f : Lane → Lane) (s : State) : (setLane c f s).freeCtr = s.freeCtr := by rfl
@[simp] theorem setLane_pending (c : Nat) (f : Lane → Lane) (s : State) : (setLane c f s).pending = s.pending := by rfl

@[simp] theorem hold_dev (g : Nat × Nat) (h : Held) (s : State) : (hold g h s).dev = s.dev := by rfl
@[simp] theorem hold_clock (g : Nat × Nat) (h : Held) (s : State) : (hold g h s).clock = s.clock := by rfl
@[simp] theorem hold_regs (g : Nat × Nat) (h : Held) (s : State) : (hold g h s).regs = s.regs := by rfl
@[simp] theorem hold_ctrs (g : Nat × Nat) (h : Held) (s : State) : (hold g h s).ctrs = s.ctrs := by rfl
@[simp] theorem hold_latched (g : Nat × Nat) (h : Held) (s : State) : (hold g h s).latched = s.latched := by rfl
@[simp] theorem hold_heldLow (g : Nat × Nat) (h : Held) (s : State) : (hold g h s).heldLow = s.heldLow := by rfl
@[simp] theorem hold_lports (g : Nat × Nat) (h : Held) (s : State) : (hold g h s).lports = s.lports := by rfl
@[simp] theorem hold_sw (g : Nat × Nat) (h : Held) (s : State) : (hold g h s).sw = s.sw := by rfl
@[simp] theorem hold_rx (g : Nat × Nat) (h : Held) (s : State) : (hold g h s).rx = s.rx := by rfl
@[simp] theorem hold_toHut (g : Nat × Nat) (h : Held) (s : State) : (hold g h s).toHut = s.toHut := by rfl
@[simp] theorem hold_mem (g : Nat × Nat) (h : Held) (s : State) : (hold g h s).mem = s.mem := by rfl
@[simp] theorem hold_pages (g : Nat × Nat) (h : Held) (s : State) : (hold g h s).pages = s.pages := by rfl
@[simp] theorem hold_reads (g : Nat × Nat) (h : Held) (s : State) : (hold g h s).reads = s.reads := by rfl
@[simp] theorem hold_poison (g : Nat × Nat) (h : Held) (s : State) : (hold g h s).poison = s.poison := by rfl
@[simp] theorem hold_xlt (g : Nat × Nat) (h : Held) (s : State) : (hold g h s).xlt = s.xlt := by rfl
@[simp] theorem hold_dir (g : Nat × Nat) (h : Held) (s : State) : (hold g h s).dir = s.dir := by rfl
@[simp] theorem hold_cmd (g : Nat × Nat) (h : Held) (s : State) : (hold g h s).cmd = s.cmd := by rfl
@[simp] theorem hold_comps (g : Nat × Nat) (h : Held) (s : State) : (hold g h s).comps = s.comps := by rfl
@[simp] theorem hold_sec (g : Nat × Nat) (h : Held) (s : State) : (hold g h s).sec = s.sec := by rfl
@[simp] theorem hold_eng (g : Nat × Nat) (h : Held) (s : State) : (hold g h s).eng = s.eng := by rfl
@[simp] theorem hold_haul (g : Nat × Nat) (h : Held) (s : State) : (hold g h s).haul = s.haul := by rfl
@[simp] theorem hold_cards (g : Nat × Nat) (h : Held) (s : State) : (hold g h s).cards = s.cards := by rfl
@[simp] theorem hold_out (g : Nat × Nat) (h : Held) (s : State) : (hold g h s).out = s.out := by rfl
@[simp] theorem hold_freeCtr (g : Nat × Nat) (h : Held) (s : State) : (hold g h s).freeCtr = s.freeCtr := by rfl
@[simp] theorem hold_pending (g : Nat × Nat) (h : Held) (s : State) : (hold g h s).pending = s.pending := by rfl

@[simp] theorem emit_dev (o : Out) (s : State) : (emit o s).dev = s.dev := by rfl
@[simp] theorem emit_clock (o : Out) (s : State) : (emit o s).clock = s.clock := by rfl
@[simp] theorem emit_regs (o : Out) (s : State) : (emit o s).regs = s.regs := by rfl
@[simp] theorem emit_ctrs (o : Out) (s : State) : (emit o s).ctrs = s.ctrs := by rfl
@[simp] theorem emit_latched (o : Out) (s : State) : (emit o s).latched = s.latched := by rfl
@[simp] theorem emit_heldLow (o : Out) (s : State) : (emit o s).heldLow = s.heldLow := by rfl
@[simp] theorem emit_lports (o : Out) (s : State) : (emit o s).lports = s.lports := by rfl
@[simp] theorem emit_sw (o : Out) (s : State) : (emit o s).sw = s.sw := by rfl
@[simp] theorem emit_rx (o : Out) (s : State) : (emit o s).rx = s.rx := by rfl
@[simp] theorem emit_toHut (o : Out) (s : State) : (emit o s).toHut = s.toHut := by rfl
@[simp] theorem emit_mem (o : Out) (s : State) : (emit o s).mem = s.mem := by rfl
@[simp] theorem emit_pages (o : Out) (s : State) : (emit o s).pages = s.pages := by rfl
@[simp] theorem emit_reads (o : Out) (s : State) : (emit o s).reads = s.reads := by rfl
@[simp] theorem emit_poison (o : Out) (s : State) : (emit o s).poison = s.poison := by rfl
@[simp] theorem emit_xlt (o : Out) (s : State) : (emit o s).xlt = s.xlt := by rfl
@[simp] theorem emit_dir (o : Out) (s : State) : (emit o s).dir = s.dir := by rfl
@[simp] theorem emit_cmd (o : Out) (s : State) : (emit o s).cmd = s.cmd := by rfl
@[simp] theorem emit_comps (o : Out) (s : State) : (emit o s).comps = s.comps := by rfl
@[simp] theorem emit_sec (o : Out) (s : State) : (emit o s).sec = s.sec := by rfl
@[simp] theorem emit_eng (o : Out) (s : State) : (emit o s).eng = s.eng := by rfl
@[simp] theorem emit_haul (o : Out) (s : State) : (emit o s).haul = s.haul := by rfl
@[simp] theorem emit_cards (o : Out) (s : State) : (emit o s).cards = s.cards := by rfl
@[simp] theorem emit_flt (o : Out) (s : State) : (emit o s).flt = s.flt := by rfl
@[simp] theorem emit_freeCtr (o : Out) (s : State) : (emit o s).freeCtr = s.freeCtr := by rfl
@[simp] theorem emit_pending (o : Out) (s : State) : (emit o s).pending = s.pending := by rfl

end Sys2Proof.Machine
end

