-- ==== Sys2Proof/Tests/Slice0.lean ====
section
/-! SUPPORT. Tests on small states: ill-formed commands, single steps, and for each statement states and operands that meet its
hypotheses. -/

namespace Sys2Proof.Tests

set_option Elab.async false

open Sys2Proof.Machine

/-- A configuration word. -/
def cw (a v : Nat) : Nat × Word := (a, BitVec.ofNat 32 v)

/-- A logical port in traffic on all eight lanes, with credit. -/
def lpUp : LPort :=
  { st := 4, lanes := 0xFF, peerLimit := List.replicate 8 1000, myLimit := List.replicate 8 1000, peerCaps := 3, gotInit := true, gotAck := true }

/-- The device part of a device in FULL. -/
def devUp : Dev := { pwrOk := true, porstLow := false, inReset := false, stage := 8, devState := .full, refs := 0x3FF }

/-- A device in FULL: endpoints 5 and 6 of composition 1 on ports 0 and 1, a tray on port 2, a trunk on port 3, commands on port 4, PLAIN
ports 5 and 6; space 3 of composition 1 with an HBM extent and a tray extent, job 7 with all rights on it. -/
def up : State :=
  { dev := devUp
    clock := { clk := 1000000, tb := 1000000 }
    regs := [cw 0x01000000 0x201, cw 0x01000020 1, cw 0x01010000 0x201, cw 0x01010020 1, cw 0x01020000 0x202, cw 0x01020020 1,
      cw 0x01030000 0x203, cw 0x01030020 1, cw 0x01040000 0x204, cw 0x01050000 0x203, cw 0x01050020 6, cw 0x01060000 0x203,
      cw 0x03000008 1, cw 0x03001000 0x81000005, cw 0x03001010 0xFFFF0007,
      cw 0x03001100 0x81000006, cw 0x03001110 0xFFFF0007, cw 0x03007000 0x40, cw 0x03008014 0x80000000,
      cw 0x03008018 0x80000008, cw 0x03009000 0x80000100, cw 0x03009008 16]
    lports := [(0, lpUp), (8, lpUp), (16, lpUp), (24, { lpUp with peerNode := 77 }), (32, lpUp), (40, lpUp), (48, lpUp)]
    comps := [(0, { st := 1 }), (1, { st := 1, hbmQ := [64, 64, 64, 64], trayQ := 8, made := true })]
    cmd := { queues := [(0, { depth := 64 }), (4, { depth := 64 })] }
    xlt := { spaces := [(3, { comp := 1 })], jobs := [(7, { comp := 1, pairs := [(3, 7)] })]
             extents := [(0, { space := 3, offset := 0, size := 0x200000, hbm := true, base := 8 }),
                         (1, { space := 3, offset := 0x200000, size := 0x200000, hbm := false, base := 0x200000 })] } }

theorem up_runs : running up = true ∧ takesPackets up 0 = true ∧ epValid up 8 = true ∧ routeOf up 6 = .port 8 ∧
    modeOf up 32 = 4 ∧ isKmt up 40 = false ∧ trayPick up 0 0x200000 = some (16, 0) := by decide +kernel

/-! ### Ill-formed commands are refused -/

/-- A management header out of range. -/
def badHdr : MgmtHdr := { sess := 2 ^ 32 }

theorem test_wf_pins : (Instr.internalResetEnd 4).wf = false ∧ (Instr.refclkCheck true true 256).wf = false ∧
    (Instr.crestPllLockLoss 4).wf = false ∧ (Instr.combDecision 4).wf = false ∧ (Instr.smbusBlockWrite 128 1 [] true).wf = false ∧
    (Instr.smbusBlockRead 0x5C 256 true).wf = false := by decide
theorem test_wf_ports : (Instr.pcsLock 1024).wf = false ∧ (Instr.laneFail 0 8 .cdr).wf = false ∧ (Instr.restoreTimer 0 8).wf = false ∧
    (Instr.degrade 0 { mask := 256 }).wf = false ∧
    (Instr.restore 0 { switchCw := 2 ^ 32 }).wf = false ∧ (Instr.pfcFrameReceive 0 8 0).wf = false ∧
    (Instr.pfcFrameReceive 0 0 65536).wf = false ∧ (Instr.portCtlRetrain .cmd 96 0).wf = false ∧
    (Instr.portCfgWrite .cmd (2 ^ 32) 0).wf = false := by decide
theorem test_wf_frames : (Instr.plainFrameReceive 0 .absent { dstMac := 2 ^ 48 } .good).wf = false ∧
    (Instr.plainFrameReceive 0 .absent { pcp := some 8 } .good).wf = false ∧
    (Instr.plainFrameReceive 0 .absent { etype := 65536 } .good).wf = false := by decide
theorem test_wf_packets : (Instr.rd 0 8 {}).wf = false ∧ (Instr.wr 1024 0 {}).wf = false ∧ (Instr.rd 0 0 { opcode := 256 }).wf = false ∧
    (Instr.rd 0 0 { status := 256 }).wf = false ∧ (Instr.rd 0 0 { load := 16 }).wf = false ∧ (Instr.rd 0 0 { comp := 64 }).wf = false ∧
    (Instr.rd 0 0 { len := 65536 }).wf = false ∧ (Instr.rd 0 0 { job := 65536 }).wf = false ∧ (Instr.rd 0 0 { src := 2 ^ 18 }).wf = false ∧
    (Instr.rd 0 0 { dst := 2 ^ 18 }).wf = false ∧ (Instr.rd 0 0 { tag := 2 ^ 24 }).wf = false ∧ (Instr.rd 0 0 { space := 65536 }).wf = false ∧
    (Instr.rd 0 0 { chan := 256 }).wf = false ∧ (Instr.rd 0 0 { addr := 2 ^ 64 }).wf = false ∧ (Instr.hbeat 0 6 {} true 2).wf = false := by decide
theorem test_wf_lines : (Instr.lineTransactionDone 1024 0).wf = false ∧ (Instr.dirEntryFill 0 (2 ^ 46) true).wf = false ∧
    (Instr.belayHoldExpiry 0 0 512).wf = false ∧ (Instr.deadUsExpiry 64 0).wf = false ∧ (Instr.reclaimWalkDone 0 512).wf = false ∧
    (Instr.replyCacheExpiry 4 0 0).wf = false ∧ (Instr.replyCacheExpiry 0 (2 ^ 18) 0).wf = false ∧
    (Instr.replyCacheExpiry 0 0 (2 ^ 24)).wf = false := by decide
theorem test_wf_units : (Instr.roleScrubDone .eng 128).wf = false ∧ (Instr.roleScrubDone .haul 64).wf = false ∧ (Instr.sramUe 64).wf = false ∧
    (Instr.haulUe 32).wf = false ∧ (Instr.engResetDone 128 true).wf = false ∧ (Instr.roundFlushDone 0 64).wf = false ∧
    (Instr.layerArm 16).wf = false ∧ (Instr.engCtlReset .cmd 128 0).wf = false := by decide
theorem test_wf_commands : (Instr.nop 64 0).wf = false ∧ (Instr.nop 0 4).wf = false ∧ (Instr.ringProducerResume 0 1024).wf = false ∧
    (Instr.tenantScrubDone 64).wf = false ∧ (Instr.counterReadClear .cmd (2 ^ 32)).wf = false ∧
    (Instr.registerWrite .cmd (2 ^ 32) 0).wf = false := by decide
theorem test_wf_management : (Instr.getVersion badHdr).wf = false ∧ (Instr.getVersion { seq := 2 ^ 64 }).wf = false ∧
    (Instr.getCertificate {} 256 0 0).wf = false ∧ (Instr.getMeasurements {} 256 []).wf = false ∧
    (Instr.keyInstall {} 64 1 1 false [] []).wf = false ∧ (Instr.keyRetire {} 0 65536).wf = false ∧
    (Instr.sakInstall {} 0 true 4 0 [] 0 [] []).wf = false ∧
    (Instr.mgmtRegRead {} (2 ^ 32) 1).wf = false := by decide
theorem test_wf_frame_length : (Instr.plainFrameReceive 0 .absent { len := 63 } .good).wf = false ∧
    (Instr.cmdIntake 0 { srcMac := 2 ^ 48 }).wf = false ∧ (Instr.cmdIntake 0 { dstIp := 2 ^ 128 }).wf = false ∧
    (Instr.cmdIntake 0 { srcPort := 65536 }).wf = false ∧ (Instr.cmdIntake 0 { vlan := some 4096 }).wf = false := by decide
theorem test_wf_flash : (Instr.imageWrite {} { svn := 65536 }).wf = false ∧ (Instr.imageWrite {} { magic := 2 ^ 32 }).wf = false ∧
    (Instr.capsuleWrite {} { capSvn := 65536 }).wf = false ∧
    (Instr.capsuleWrite {} { anchors := List.replicate 17 {} }).wf = false := by decide

/-! ### Power, resets and boot -/

/-- A device in its cold boot at a stage. -/
def bootAt (n : Nat) : State := { dev := { devUp with stage := n, devState := .baseCamp } }
/-- A device with a reset request that is due. -/
def dueReset (cold : Bool) : State := { up with dev.resetReq := some { cold, cause := 3, due := 1010000 } }
/-- A device in recovery. -/
def recov : State := { dev := { devUp with stage := 15, bootErr := 4, devState := .baseCamp } }
/-- A device in BIVOUAC. -/
def bivouac : State := { up with dev.devState := .bivouac, dev.jtagRo := true, dev.roBusy := true, dev.roAddr := 0x1000000000000000 }

theorem witness_ResetsWarmAndCold : (up.dev.pwrOk = true ∧ up.dev.brown = false) ∧
    ((dueReset true).dev.resetReq = some { cold := true, cause := 3, due := 1010000 } ∧ ((⟨true, 3, 1010000⟩ : ResetReq).cold = true)) ∧
    takesWarm up = true ∧
    (takesWarm (dueReset false) = true ∧ (dueReset false).dev.coreRstLow = false ∧ (dueReset false).sec.capsule = none) ∧
    (let s : State := { up with dev.warm := true, dev.warmHeld := true }; s.dev.warm = true ∧ s.dev.warmHeld = true ∧ s.sec.capsule = none) := by
  decide +kernel
theorem witness_StartUp : State.reset.dev.pwrOk = false ∧
    (let s : State := { State.reset with dev.pwrOk := true }; s.dev.pwrOk = true ∧ s.dev.brown = false ∧ s.dev.inReset = true) ∧
    (dead (bootAt 0) = false ∧ (bootAt 0).dev.stage = 0) ∧ running up = true ∧
    (∀ f, f < 8 → bit up.dev.refs f = true → bit 0xFF f = true) ∧ bit up.dev.refs 8 = true ∧
    (dead recov = false ∧ recovery recov = true ∧ recov.dev.mgmtLinked = false) := by decide +kernel
theorem witness_BootStages : (boots (bootAt 1) ∧ (bootAt 1).dev.flash.helper = true) ∧
    (let s : State := { bootAt 2 with dev.flash.image := some {} }; boots s ∧ s.dev.stage = 2 ∧ s.dev.flash.image = some {}) ∧
    boots (bootAt 3) ∧ (boots (bootAt 4) ∧ (bootAt 4).dev.flash.capsule = none) ∧
    (boots (bootAt 5) ∧ (bootAt 5).dev.bootErr = 0 ∧ bit (bootAt 5).dev.refs 8 = true) := by unfold boots; decide +kernel
/-- A device about to enter FULL. -/
def fullWait : State := { up with dev := { devUp with stage := 7, devState := .baseCamp }, clock.tbState := 2 }
theorem witness_FullEntryRetrains : running fullWait = true ∧ fullWait.dev.stage = 7 ∧ fullWait.dev.devState = .baseCamp ∧
    fullWait.clock.tbState = 2 ∧ fullWait.sw.voq = [] ∧ fullWait.sw.egress = [] ∧ fullWait.xlt.trays = [] ∧
    keysRise fullWait.lports = true ∧ mget fullWait.lports 0 = some lpUp ∧ isLport fullWait 0 = true ∧ modeOf fullWait 0 ≠ 0 ∧
    (lport fullWait 100).st = 0 := by decide +kernel
theorem witness_DeviceFailures : running up = true ∧ mgmtUp up = true ∧ ({ up with dev.coresDown := true } : State).dev.coresDown = true := by
  decide +kernel
theorem witness_SensorsAndTime : dead up = false ∧ (([500, 879].take 13).all fun t => decide (t < (880 : Int))) = true ∧
    (let s : State := { up with dev.dieHot := [true] }; dead s = false ∧ s.dev.dieHot.head? = some true ∧ s.flt.stopped = false) ∧
    (running up = true ∧ isLport up 40 = true ∧ bit (lcfg up 40) 2 = true ∧ live up 40 = true) ∧
    (let s : State := { up with clock.tbState := 2 }; tbRuns s = true ∧ s.clock.tbState = 2) := by decide +kernel
theorem witness_Freezing : (dead up = false ∧ up.dev.devState ≠ .bivouac) ∧ (bivouac.dev.devState = .bivouac ∧ bivouac.dev.roBusy = true ∧
    bits bivouac.dev.roAddr 63 60 = 1 ∧ bits bivouac.dev.roAddr 59 58 = 0 ∧ bivouac.sec.confSeen = false) := by decide +kernel
theorem witness_JtagAndSmbus : tapUp up = true ∧ scanAllowed recov = true ∧ tapUp recov = true ∧ scanAllowed up = false ∧
    (dead bivouac = false ∧ bivouac.dev.devState = .bivouac ∧ bivouac.dev.jtagRo = true ∧ tapUp bivouac = true) ∧
    (smbMine up 0x5C = true ∧ smbMine up 0x10 = false ∧ up.dev.smbPtr % 4 = 0 ∧ up.dev.smbPtr < 0x01000000) := by decide +kernel

/-! ### Links -/

/-- A port in some state. -/
def portIn (lp : Nat) (l : LPort) : State := { up with lports := mset up.lports lp l }
/-- A KMT frame of the reset EtherType. -/
def kmtFrame (rest : List Byte) : List Byte := zeros 12 ++ [0x88, 0xB5] ++ rest
/-- LINKCTL of a peer whose node is 9, or an echo of this port's own INIT. -/
def initOf : List Byte :=
  kmtFrame (linkHeader 4 0 64 0 false 0 0 ++ bodyCrc ([1, 1] ++ le 2 3 ++ le 4 1 ++ le 8 9 ++ le 4 65536 ++ zeros 4 ++
    (List.replicate 8 (le 4 100)).flatten ++ zeros 8))
def echoOf (s : State) (lp : Nat) : List Byte := kmtFrame (linkHeader 4 0 64 0 false 0 0 ++ bodyCrc ([2] ++ (initBody s lp).drop 1))

theorem witness_LinkStarts :
    (let s := portIn 0 { st := 2 }; running s = true ∧ isLport s 0 = true ∧ modeOf s 0 ≠ 0 ∧ (lport s 0).st = 2 ∧ isKmt s 0 = true) ∧
    (let s := portIn 40 { st := 1 }; running s = true ∧ isLport s 40 = true ∧ modeOf s 40 ≠ 0 ∧ (lport s 40).st = 1 ∧ isKmt s 40 = false) ∧
    (let s := portIn 0 { st := 3 }; rxOpen s 0 = true ∧ (lport s 0).st = 3 ∧ (lport s 0).gotInit = false ∧ (lport s 0).gotAck = false ∧
      (lport s 0).rehoming = false ∧ bodyOk s 0 64 4 initOf = true ∧ byteAt initOf 30 = 1 ∧ byteAt initOf 31 = 1 ∧
      (∀ n, n < 8 → 32 ≤ fld initOf (54 + 4 * n) 4) ∧ bodyOk s 0 64 4 [] = false ∧
      bodyOk s 0 64 4 (echoOf s 0) = true ∧ byteAt (echoOf s 0) 30 = 2 ∧ byteAt (echoOf s 0) 31 = 1 ∧
      slice (echoOf s 0) 31 63 = (initBody s 0).drop 1) := by decide +kernel

/-- A packet as another Talik sends it, and a DATA frame with it. -/
def somePut : Kmt := { opcode := 0x40, comp := 1, len := 16, src := 5, dst := 6, tag := 3, job := 7, space := 3, payload := List.replicate 16 1 }
def dataFrame (seq : Nat) : List Byte :=
  kmtFrame (linkHeader 1 3 (kmtBytes somePut).length 0 false seq 0 ++ blocksOf 1 (kmtBytes somePut))
/-- The frame's packet is queued for port 0. -/
def toSend : State := { up with sw.egress := [{ lp := 0, tc := 3, cargo := .kmt somePut }] }

theorem witness_DataFrames :
    (kmtPort up 0 = true ∧ live up 0 = true ∧ modeOf up 0 ≠ 4 ∧ up.sw.capture = none ∧ macsecReq up 0 = false ∧
      ∀ n ∈ [0, 1, 2 ^ 32 - 1], frameEtype (dataFrame n) = etypeOf up 0 ∧ (linkHdr (dataFrame n)).hcrcOk = true ∧ (linkHdr (dataFrame n)).ver = 1 ∧
        (linkHdr (dataFrame n)).subtype = 1 ∧ 0 < (linkHdr (dataFrame n)).plen ∧ (linkHdr (dataFrame n)).plen ≤ 8192 ∧
        (linkHdr (dataFrame n)).av = false) ∧
    (seqDiff (linkHdr (dataFrame 0)).seq (lport up 0).next = 0 ∧ (lport up 0).unacked < 15 ∧ 
      parseBody 49 ((padTo 256 (kmtBytes somePut)).take 48) = ([somePut], .ok)) ∧
    seqDiff (linkHdr (dataFrame (2 ^ 32 - 1))).seq (lport up 0).next < 0 ∧
    (0 < seqDiff (linkHdr (dataFrame 1)).seq (lport up 0).next ∧ (lport up 0).nak = none) ∧
    (kmtPort toSend 0 = true ∧ live toSend 0 = true ∧ txSecOk toSend 0 = true ∧ toSend.sw.capture = none ∧ (lport toSend 0).replayQ = [] ∧
      toSend.sw.egress.find? (canStart toSend 0) = some { lp := 0, tc := 3, cargo := .kmt somePut }) := by decide +kernel

/-- The frame's block is good. -/
theorem witness_DataFrames_block : readBlocks (ceilDiv (kmtBytes somePut).length 256) 0 ((dataFrame 0).drop 30) =
    (padTo 256 (kmtBytes somePut), none) := by
  have h : (dataFrame 0).drop 30 = padTo 256 (kmtBytes somePut) ++ le 4 (crc32c (padTo 256 (kmtBytes somePut))) := by
    rw [dataFrame, kmtFrame, ← List.append_assoc, List.drop_left' (by decide +kernel)]
    simp only [blocksOf, List.append_nil]
    rw [List.take_of_length_le (by decide +kernel)]
  have n : ceilDiv (kmtBytes somePut).length 256 = 1 := by decide +kernel
  rw [n, h]
  exact readBlocks_block _ 0 (by decide +kernel)

/-- Two frames in the replay buffer of port 0, an accepted one not yet acknowledged, a NAK sent. -/
def replaying : State :=
  portIn 0 { lpUp with txSeq := 2, replay := [{ seq := 0, tc := 3, body := zeros 48 }, { seq := 1, tc := 3, body := zeros 48 }], unacked := 1,
                       unackedAt := 999900, nak := some (0, 2, 999000) }
/-- An ACK or NAK of SEQ `a`. -/
def ackOf (sub a : Nat) : List Byte := kmtFrame (linkHeader sub 0 32 1 true 0 a ++ bodyCrc ((List.replicate 8 (le 4 2000)).flatten))

theorem witness_AcksAndReplays : kmtPort replaying 0 = true ∧ live replaying 0 = true ∧ bodyOk replaying 0 32 2 (ackOf 2 1) = true ∧
    (linkHdr (ackOf 2 1)).av = true ∧ 0 ≤ seqDiff (lport replaying 0).txSeq (linkHdr (ackOf 2 1)).ackseq ∧
    (bodyOk replaying 0 32 3 (ackOf 3 1) = true ∧ 0 ≤ seqDiff (linkHdr (ackOf 3 1)).ackseq (oldestSeq (lport replaying 0)) ∧
      seqDiff (linkHdr (ackOf 3 1)).ackseq (lport replaying 0).txSeq ≤ 0 ∧ (lport replaying 0).replayFrom ≠ some (linkHdr (ackOf 3 1)).ackseq ∧
      ((lport replaying 0).replay.any fun x => decide (0 ≤ seqDiff x.seq (linkHdr (ackOf 3 1)).ackseq)) = true ∧
      1 < bits (kmtCfg replaying 0) 15 12) ∧
    0 < (lport replaying 0).unacked ∧ (lport replaying 0).nak = some ((lport replaying 0).next, 2, 999000) ∧
    (∃ x xs, (lport replaying 0).replay = x :: xs ∧ (lport replaying 0).replayFrom ≠ some x.seq) :=
  ⟨by decide +kernel, by decide +kernel, by decide +kernel, by decide +kernel, by decide +kernel, by decide +kernel, by decide +kernel,
   by decide +kernel, _, _, rfl, by decide +kernel⟩

/-- A lane move on port 0. -/
def moving (m : LaneMove) : State := portIn 0 { lpUp with move := some m }
/-- Port 0 on its lower lanes, the upper ones failed, lane 7 the last that has not been good again. -/
def narrow : State := portIn 0 { lpUp with st := 5, lanes := 0x0F, failed := 0xF0, good := 0x70 }

theorem witness_LanesMove :
    (kmtPort up 0 = true ∧ live up 0 = true ∧ bit (lport up 0).lanes 5 = true ∧ bit (lport up 0).failed 5 = false ∧ width up 0 ≠ 1 ∧
      bit (degCfg up 0) 0 = true ∧ bit (lport up 0).peerCaps 0 = true ∧ (lport up 0).move = none ∧
      laneGroup (lport up 0).lanes ((lport up 0).failed + 2 ^ 5) ([4, 2, 1].filter (· < popcount8 (lport up 0).lanes)) = some 0x0F) ∧
    (∀ sw ∈ [true, false], let s := moving { mask := 0x0F, switchCw := 9, initiator := true, restore := false, switched := sw }
      kmtPort s 0 = true ∧ live s 0 = true ∧ (∃ x, (lport s 0).move = some x ∧ x.initiator = true ∧ x.restore = false ∧ x.acked = false ∧
        x.switched = sw)) ∧ noTrayOn up 0 ∧
    (∃ x, (lport (moving { mask := 0x0F, switchCw := 9, initiator := false, restore := false, acked := true }) 0).move = some x ∧ x.acked = true) ∧
    (kmtPort narrow 0 = true ∧ live narrow 0 = true ∧ bit (degCfg narrow 0) 1 = true ∧ bit (lport narrow 0).failed 7 = true ∧
      (lport narrow 0).move = none ∧ bit (lport narrow 0).good 7 = false ∧
      laneGroup (startLanes narrow 0) ((lport narrow 0).failed &&& (0xFF ^^^ ((lport narrow 0).good + 2 ^ 7)))
        ([8, 4, 2, 1].filter (popcount8 (lport narrow 0).lanes < ·)) = some 0xFF) ∧
    (∀ sw ∈ [true, false], ∃ x, (lport (moving { mask := 0xFF, switchCw := 9, initiator := true, restore := true, switched := sw }) 0).move = some x ∧
      x.initiator = true ∧ x.restore = true ∧ x.switched = sw) := by
  refine ⟨by decide +kernel, ?_, by unfold noTrayOn; decide +kernel, ⟨_, rfl, rfl⟩, by decide +kernel, ?_⟩
  · intro sw _
    cases sw <;> exact ⟨by decide +kernel, by decide +kernel, _, rfl, rfl, rfl, rfl, rfl⟩
  · intro sw _
    cases sw <;> exact ⟨_, rfl, rfl, rfl, rfl⟩

theorem witness_LinksLost : running up = true ∧ isLport up 0 = true ∧ noTrayOn up 0 ∧ live up 0 = true ∧ kmtPort up 0 = true ∧
    (let s := portIn 0 { lpUp with st := 6, rehomeAt := 5 }; running s = true ∧ kmtPort s 0 = true ∧ (lport s 0).st = 6) ∧
    bit (linkCfg up 0) 31 = true ∧
    (let s := portIn 0 { st := 7, penalty := 500, penNow := 500 }; running s = true ∧ bit (linkCfg s 0) 31 = true ∧ (lport s 0).st = 7) := by
  unfold noTrayOn; decide +kernel

/-- The MAC table sends 02:00:00:00:00:06 to port 6. -/
def bridged : State := { up with regs := mset (mset up.regs 0x02200000 (BitVec.ofNat 32 0x02)) 0x02200004 (BitVec.ofNat 32 0x30800600) }
theorem witness_PlainFrames : (running bridged = true ∧ isLport bridged 40 = true ∧ live bridged 40 = true ∧ isKmt bridged 40 = false ∧
      modeOf bridged 40 ≠ 0 ∧ modeOf bridged 40 ≠ 4 ∧ macsecReq bridged 40 = false ∧ bridged.sw.capture = none ∧
      macLookup bridged 0x020000000006 = some 48 ∧ modeOf bridged 48 = 3 ∧ macLookup bridged 7 = none ∧ bit (lcfg bridged 40) 1 = true ∧
      carveTake bridged (crestOf 40) 4 1 = some (1, 0)) ∧
    (running up = true ∧ isLport up 32 = true ∧ live up 32 = true ∧ isKmt up 32 = false ∧ modeOf up 32 = 4) := by decide +kernel

/-! ### The memory transport -/

/-- A packet of endpoint 5 under job 7 on space 3. -/
def memPkt (op addr len : Nat) (payload : List Byte) : Kmt :=
  { opcode := op, comp := 1, len, job := 7, src := 5, dst := 0x3FFFF, tag := 11, space := 3, addr, payload }
/-- The length of an operand by opcode, and a packet of each memory row. -/
def rowPkt (op addr : Nat) : Kmt := memPkt op addr (if op = 0x17 then 16 else 8) (if op = 0x01 then [] else List.replicate (if op = 0x17 then 16 else 8) 7)

theorem witness_HbmRequests : ∀ oc ∈ memRows, (rowPkt oc.1 64).opcode = oc.1 ∧ Accepts up 0 1 (rowPkt oc.1 64) ∧
    ringAt up 3 64 = none ∧ extAt up 3 64 = some (0, { space := 3, offset := 0, size := 0x200000, hbm := true, base := 8 }) ∧
    coherentAt up 3 64 = false ∧ mirrorBit up 1 = false ∧ alone up 0 1 (rowPkt oc.1 64).opcode := by
  unfold Accepts State.IdsOk alone; decide +kernel
theorem witness_TrayRequests : ∀ oc ∈ memRows, (rowPkt oc.1 0x200040).opcode = oc.1 ∧ Accepts up 0 1 (rowPkt oc.1 0x200040) ∧
    ringAt up 3 0x200040 = none ∧ (extAt up 3 0x200040).map (fun e => (e.1, e.2.hbm, extAddr e.2 0x200040)) = some (1, false, 0x200040) ∧
    coherentAt up 3 0x200040 = false ∧ alone up 0 1 (rowPkt oc.1 0x200040).opcode ∧ trayPick up 0 0x200040 = some (16, 0) := by
  unfold Accepts State.IdsOk alone; decide +kernel

/-- Endpoint 5 has no binding. -/
def unbound : State := { up with regs := up.regs.filter (·.1 != 0x03001000) }
/-- A reply to TAG 11 is saved; the request of TAG 11 is in flight. -/
def replied : State := { up with xlt.cache := [{ crest := 0, src := 5, tag := 11, status := 0, data := [1], at_ := 900000 }] }
def flying (p : Kmt) : Req := { id := 10, lp := 0, tc := 1, pkt := p, crest := 0, ext := some 0, at_ := 1000000 }
def inFlight (p : Kmt) : State := { up with xlt.reqs := [flying p], xlt.nextId := 20 }

theorem witness_RefusedAndForwarded : (∀ oc ∈ memRows, takesPackets up 0 = true ∧ meetsIntent up (rowPkt oc.1 64) = false ∧
      (rowPkt oc.1 64).rsp = false ∧ lsCheck (takeRx 0 0 (rowPkt oc.1 64) up) 0 0 (rowPkt oc.1 64) = .refuse 5 0x11 0 0x03000400 ∧
      lsCheck (takeRx 0 1 (rowPkt oc.1 64) unbound) 0 1 (rowPkt oc.1 64) = .drop 0x03000408) ∧
    (let p := { rowPkt 0x02 64 with rtx := true };
      lsCheck (takeRx 0 1 p replied) 0 1 p = .cached { crest := 0, src := 5, tag := 11, status := 0, data := [1], at_ := 900000 } ∧
      lsCheck (takeRx 0 1 p (inFlight p)) 0 1 p = .discard) ∧
    (takesPackets up 0 = true ∧ routeOf up somePut.dst = .port 8 ∧ live up 8 = true ∧ epComp up 8 = somePut.comp ∧
      (∀ oc ∈ msgRows, ({ somePut with opcode := oc.1 } : Kmt).opcode = oc.1) ∧ somePut.rsp = false ∧ modeOf up 0 = 1 ∧ epValid up 0 = true ∧
      somePut.src = epId up 0 ∧ somePut.comp = epComp up 0 ∧ 0 < (bucket up 0).fill ∧ modeOf up 24 = 3 ∧ takesPackets up 24 = true ∧
      somePut.dst ≠ selfEp up ∧ ({ somePut with src := 9 } : Kmt).src ≠ epId up 0) := by decide +kernel

/-- A request in flight whose operation is at the memory units. -/
def atMemory (op : MemOp) (p : Kmt) : State := { inFlight p with xlt.ops := [{ id := 11, addr := 0x1000040, op, why := .req 10 }], mem := [(0x1000040, 5)] }
theorem witness_HbmOperations : ∀ x ∈ [(MemOp.read 8, rowPkt 0x01 64), (.write [1, 2], memPkt 0x02 64 2 [1, 2]), (.atomic 0x10 8 (le 8 7), rowPkt 0x10 64)],
    let s := atMemory x.1 x.2;
    running s = true ∧ s.xlt.ops.find? (·.id == 11) = some { id := 11, addr := 0x1000040, op := x.1, why := .req 10 } ∧
    opBlocked s { id := 11, addr := 0x1000040, op := x.1, why := .req 10 } = false ∧ findReq s 10 = some (flying x.2) ∧ s.poison = [] := by
  decide +kernel
theorem witness_AtomicValues : (255 : Nat) < 2 ^ (8 * 4) ∧ (0 : Nat) < 4 ∧ (∀ x ∈ [zeros 4, le 4 9], x.length = 4) := by decide +kernel

/-- An EPOCH region at the base of space 3, and a publish of Cairn 5 in it. -/
def epoch (c : Nat) : State :=
  { inFlight (memPkt 0x21 0 8 (le 8 5)) with dir.regions := [(2, { space := 3, base := 0, size := 0x200000, mode := 1, cairn := c })]
                                             dir.pubs := [{ id := 11, region := 2, cairn := 5, who := .req 10 }] }
theorem witness_FlushAndPublish :
    (Accepts (inFlight (rowPkt 0x02 64)) 0 1 { memPkt 0x20 0 0 [] with tag := 12 }) ∧
    (Accepts (epoch 1) 0 1 { memPkt 0x21 0 8 (le 8 6) with tag := 12 } ∧
      regionAt (epoch 1) 3 0 = some (2, { space := 3, base := 0, size := 0x200000, mode := 1, cairn := 1 })) ∧
    (∀ c ∈ [1, 5], let s := epoch c; findReq s 10 = some (flying (memPkt 0x21 0 8 (le 8 5))) ∧ (flying (memPkt 0x21 0 8 (le 8 5))).waits = [] ∧
      (∀ v ∈ s.dir.pubs, v.region = 2 → 11 ≤ v.id) ∧ mget s.dir.regions 2 = some { space := 3, base := 0, size := 0x200000, mode := 1, cairn := c } ∧
      mirrorBit s (spaceComp s 3) = false) := by unfold Accepts State.IdsOk; decide +kernel

/-- A tracked tray request of request 10, and the tray's answer. -/
def tracked (again : Bool) : TrayReq :=
  { tag := 3, tray := 0, lp := 16, tc := 1, crest := 0, pkt := { rowPkt 0x01 0x200040 with job := 0, space := 0, src := 1, dst := 0x100, tag := 3 }
    ext := some 1, sentAt := 999000, reissued := again, why := .req 10 }
def atTray (again : Bool) : State := { inFlight (rowPkt 0x01 0x200040) with xlt.trays := [tracked again] }
def fromTray (st : Nat) : Kmt := response (tracked false).pkt 0x100 st 0 (if st = 0 then zeros 8 else [])
theorem witness_TrayAnswers : (∀ st ∈ [0, 0x20, 0x21], let p := fromTray st; let s := atTray false;
      takesPackets s 16 = true ∧ p.rsp = true ∧ tracked false ∈ s.xlt.trays ∧ (tracked false).why = .req 10 ∧ (findReq s 10).isSome ∧
      s.xlt.trays.find? (fun r => r.tag == p.tag && r.sent && r.pkt.opcode == p.opcode && r.pkt.dst == p.src && r.pkt.src == p.dst) = some (tracked false)) ∧
    (up.xlt.trays.find? (fun r => r.tag == 3) = none) ∧
    (∀ again ∈ [true, false], let s := atTray again;
      running s = true ∧ s.xlt.trays.find? (fun r => trayKey r == 3 && r.sent) = some (tracked again) ∧
      drainDue s 1 (999000 + trayTmoNs s) = false ∧ trayPick s 0 (tracked again).pkt.addr = some (16, 0)) := by decide +kernel

/-- A window of two requests to one place. -/
def window (op : Nat) : State :=
  { up with xlt.reqs := [{ flying (rowPkt op 64) with id := 10 }, { flying (rowPkt op 64) with id := 11 }], xlt.nextId := 20
            xlt.windows := [{ id := 12, crest := 0, tc := 1, op, space := 3, addr := 64, len := 8, at_ := 999900, reqs := [10, 11] }] }
theorem witness_Combining : (∀ op ∈ [0x01, 0x10], (window op).xlt.windows.find? (·.id == 12) =
      some { id := 12, crest := 0, tc := 1, op, space := 3, addr := 64, len := 8, at_ := 999900, reqs := [10, 11] }) ∧
    (let s := window 0x10; [10, 11].filterMap (findReq s) = s.xlt.reqs ∧ (s.xlt.reqs.map (·.ext)) = [some 0, some 0] ∧
      (mget s.xlt.extents 0).map (·.hbm) = some true ∧ coherentAt s 3 64 = false ∧ mirrorBit s 1 = false) ∧ running up = true := by decide +kernel

/-- The extent is being revoked, with its request in flight. -/
def draining : State := { atTray false with xlt.revokes := [{ ext := 1, at_ := 500000 }] }
theorem witness_TransportTimers : (running up = true ∧ keysRise up.lports = true ∧ mget up.lports 0 = some lpUp ∧ isLport up 0 = true ∧
      modeOf up 0 = 1 ∧ epValid up 0 = true ∧ bit (reg up 0x03000004) 0 = false) ∧
    (replied.xlt.cache.find? (fun c => c.crest == 0 && c.src == 5 && c.tag == 11)).isSome ∧
    (running draining = true ∧ draining.xlt.revokes.find? (·.ext == 1) = some { ext := 1, at_ := 500000 } ∧
      (∀ r ∈ draining.xlt.trays, r.ext = some 1 → r.reissued = false ∧ r.why = .req 10) ∧ extOps draining 1 = []) := by decide +kernel

/-! ### The Coherent Aperture -/

/-- A COHERENT region over space 3's HBM extent as aperture 0, with endpoints 5 and 6 as its agents 4 and 9; line 64 in the directory cache with
the entry given. -/
def aperture (d : DirEnt) : State :=
  { up with dir := { regions := [(2, { space := 3, base := 0, size := 0x200000, mode := 0 })], apts := [(0, 3)]
                     agents := [(4, { st := 1, ep := 5 }), (9, { st := 1, ep := 6 })], cache := [lkey 3 64]
                     ents := if d = {} then [] else [(lkey 3 64, d)] } }
/-- A line request of endpoint 5. -/
def linePkt (op : Nat) : Kmt := memPkt op 64 (if op = 0x32 ∨ op = 0x34 then 0 else 64) (if op = 0x33 then List.replicate 64 3 else [])

theorem two_live (k : Nat) : (mgetD [(4, ({ st := 1, ep := 5 } : Agent)), (9, { st := 1, ep := 6 })] k {}).st ≠ 2 := by
  by_cases a : k = 4
  · subst a; decide
  · by_cases b : k = 9
    · subst b; decide
    · have h : mget [(4, ({ st := 1, ep := 5 } : Agent)), (9, { st := 1, ep := 6 })] k = none := by
        rw [mget, if_neg a, mget, if_neg b, mget]
      rw [mgetD, h]
      decide

theorem aperture_none_dead (d : DirEnt) (n : Nat) : (agentAt (aperture d) 0 n).st ≠ 2 := two_live (512 * 0 + n)

theorem aperture_idle (op : Nat) (d : DirEnt) (hop : op ∈ [0x30, 0x31, 0x32, 0x33, 0x34])
    (hd : d ∈ [{}, { st := 1, ptrs := [4] }, { st := 2, ptrs := [4] }, { st := 3, ptrs := [4] }, { st := 3, ptrs := [9] },
      { st := 1, ptrs := [4, 9] }]) : LineIdle (aperture d) 0 1 (linePkt op) 0 4 := by
  have h : ∀ op ∈ [0x30, 0x31, 0x32, 0x33, 0x34], ∀ d ∈ [{}, { st := 1, ptrs := [4] }, { st := 2, ptrs := [4] }, { st := 3, ptrs := [4] },
      { st := 3, ptrs := [9] }, { st := 1, ptrs := [4, 9] }], Accepts (aperture d) 0 1 (linePkt op) ∧
      isLineOp (linePkt op).opcode = true ∧ aptOf (aperture d) (linePkt op).space = some 0 ∧ liveAgent (aperture d) 0 (linePkt op).src = some 4 ∧
      findTxn (aperture d) (linePkt op).space (lineOf (linePkt op).addr) = none ∧
      lkey (linePkt op).space (lineOf (linePkt op).addr) ∈ (aperture d).dir.cache ∧
      mirrorBit (aperture d) (spaceComp (aperture d) (linePkt op).space) = false ∧
      mirrorBit (aperture d) (linePkt op).comp = false := by unfold Accepts State.IdsOk; decide +kernel
  obtain ⟨a, b, c, e, f, g, i, j⟩ := h op hop d hd
  exact ⟨a, b, c, e, f, g, aperture_none_dead d, i, j⟩

theorem witness_LinesAskedFor :
    (∀ oc ∈ lineRows, LineIdle (aperture {}) 0 1 (linePkt oc.1) 0 4) ∧ (extAt (aperture {}) 3 64).map (fun e => e.2.hbm) = some true ∧
    (∀ g ∈ [1, 2], LineIdle (aperture { st := g, ptrs := [4] }) 0 1 (linePkt 0x32) 0 4) ∧
    (∀ g ∈ [2, 3], LineIdle (aperture { st := g, ptrs := [4] }) 0 1 (linePkt 0x34) 0 4) ∧
    LineIdle (aperture { st := 3, ptrs := [4] }) 0 1 (linePkt 0x33) 0 4 ∧ LineIdle (aperture { st := 3, ptrs := [9] }) 0 1 (linePkt 0x33) 0 4 ∧
    (∀ op ∈ [0x30, 0x31, 0x32], LineIdle (aperture { st := 3, ptrs := [9] }) 0 1 (linePkt op) 0 4) ∧
    (∀ op ∈ [0x31, 0x32], LineIdle (aperture { st := 1, ptrs := [4, 9] }) 0 1 (linePkt op) 0 4) ∧
    (dirEnt (aperture { st := 1, ptrs := [4, 9] }) 3 64).ptrs.filter (· ≠ 4) ≠ [] := by
  refine ⟨?_, by decide +kernel, ?_, ?_, aperture_idle _ _ (by decide) (by decide), aperture_idle _ _ (by decide) (by decide), ?_, ?_, by decide +kernel⟩
  · intro oc h
    exact aperture_idle _ _ (by revert oc; decide) (by decide)
  · intro g h
    exact aperture_idle _ _ (by decide) (by revert g; decide)
  · intro g h
    exact aperture_idle _ _ (by decide) (by revert g; decide)
  · intro op h
    exact aperture_idle _ _ (by revert op; decide) (by decide)
  · intro op h
    exact aperture_idle _ _ (by revert op; decide) (by decide)

/-- Line 64 is busy with endpoint 5's CRD_X. -/
def busyLine (phase : Nat) (ps : List Probe) (d : DirEnt) : State :=
  let s := aperture d
  let r : Req := { flying (linePkt 0x31) with ext := none }
  { s with xlt.reqs := [r], xlt.nextId := 20
           dir.txns := [{ space := 3, line := 64, req := lineReqOf { up with xlt.nextId := 10 } 0 1 (linePkt 0x31) 4, phase, probes := ps, grant := 3
                          next := { st := 3, ptrs := [4] } }] }
/-- A probe of agent 9. -/
def probe (again : Bool) : Probe := { tag := 30, agent := 9, ep := 6, op := 0x38, sentAt := 990000, rtx := again }
/-- Endpoint 6's answer with the line. -/
def probeAnswer : Kmt :=
  { opcode := 0x38, rsp := true, comp := 1, len := 64, src := 6, dst := 1, tag := 30, space := 3, addr := 64, payload := List.replicate 64 8 }
/-- The read of the line is at the memory units. -/
def lineRead : State := { busyLine 2 [] {} with xlt.ops := [{ id := 11, addr := 0x1000040, op := .read 64, why := .line 3 64 }] }

theorem witness_LinesGranted :
    (running lineRead = true ∧ lineRead.xlt.ops.find? (·.id == 11) = some { id := 11, addr := 0x1000040, op := .read 64, why := .line 3 64 } ∧
      opBlocked lineRead { id := 11, addr := 0x1000040, op := .read 64, why := .line 3 64 } = false ∧ lineRead.poison = [] ∧
      (findTxn lineRead 3 64).map (fun t => (t.phase, t.req.op, t.req.whom, t.req.multi)) = some (2, 0x31, .req 10, none) ∧
      (findReq lineRead 10).isSome ∧ mirrorBit lineRead (spaceComp lineRead 3) = false) ∧
    (let s := busyLine 1 [probe false] { st := 3, ptrs := [9] };
     takesPackets s 8 = true ∧ (findProbe s 30).map (fun q => (q.2, q.1.probes)) = some (probe false, [probe false]) ∧
     (findProbe s 30).map (fun q => (q.1.phase, q.1.req.op, q.1.req.agent, q.1.data.isSome, q.1.pois)) = some (1, 0x31, 4, false, false) ∧ probeAnswer.src = 6 ∧ dirEnt s 3 64 = { st := 3, ptrs := [9] } ∧
     findProbe up 30 = none) ∧
    (∀ n, (agentAt (busyLine 1 [probe false] { st := 3, ptrs := [9] }) 0 n).st ≠ 2) ∧
    (findTxn (busyLine 4 [] {}) 3 64).map (fun t => (t.phase, t.wb, t.queue)) = some (4, false, []) ∧
    (findTxn (busyLine 0 [] {}) 3 64).map (·.phase) = some 0 :=
  ⟨by decide +kernel, by decide +kernel, aperture_none_dead { st := 3, ptrs := [9] }, by decide +kernel, by decide +kernel⟩

theorem witness_AgentsAndTimers :
    (running (aperture {}) = true ∧ mget (aperture {}).dir.apts 0 = some 3 ∧ (aperture {}).dir.txns = [] ∧ (aperture {}).dir.multis = []) ∧
    (let s : State := { aperture {} with dir.agents := [(9, { st := 1, ep := 6 })] };
      Accepts s 0 1 (memPkt 0x35 0 0 []) ∧ liveAgent s 0 5 = none ∧ (agentAt s 0 0).st = 0) ∧
    (Accepts (aperture {}) 0 1 (memPkt 0x36 0 0 []) ∧ liveAgent (aperture {}) 0 5 = some 4 ∧ (agentAt (aperture {}) 0 4).st = 1) ∧
    (let s : State := { aperture {} with lports := mset up.lports 0 { st := 1, downAt := some 900000 } };
      (s.lports.map (·.1)).find? (fun l => isLport s l && epValid s l && epId s l == 5) = some 0 ∧ (lport s 0).downAt = some 900000 ∧ (lport s 0).st = 1) ∧
    (let s : State := { aperture {} with dir.reclaims := [{ apt := 0, agent := 7, due := 5 }] };
      s.dir.reclaims.find? (fun r => r.apt == 0 && r.agent == 7) = some { apt := 0, agent := 7, due := 5 } ∧ mgetD s.dir.apts 0 0 = 3) ∧
    (let s : State := { aperture {} with dir.holds := [{ space := 3, line := 64, agent := 4, till := 5 }] };
      (s.dir.holds.find? (fun h => h.space == 3 && h.line == 64 && h.agent == 4)).isSome) ∧
    (let s : State := { aperture { st := 1, ptrs := [4] } with dir.walks := [{ id := 8, space := 3, lo := 0, hi := 4096, due := 5 }] };
      s.dir.walks.find? (·.id == 8) = some { id := 8, space := 3, lo := 0, hi := 4096, due := 5 }) ∧
    (let s := busyLine 1 [probe false] { st := 3, ptrs := [9] };
      running s = true ∧ (findProbe s 30).map (·.2) = some (probe false) ∧ boundPort s 6 = some 8 ∧ live s 8 = true) ∧
    (let s := busyLine 1 [probe true, { probe false with tag := 31, agent := 4, ep := 5 }] { st := 1, ptrs := [4, 9] };
      (findProbe s 30).map (fun q => (q.2, q.1.probes)) = some (probe true, [probe true, { probe false with tag := 31, agent := 4, ep := 5 }]) ∧
      aptOf s 3 = some 0 ∧ (agentAt s 0 9).st = 1 ∧ s.dir.txns.length = 1) := by unfold Accepts State.IdsOk; decide +kernel

/-! ### Commands of the queues -/

theorem starts_of {s : State} {k q op : Nat} {act : Option Nat} {c : CmdRec} (h : cmdPathUp s = true ∧ startable s k q = some c ∧ c.comp = k ∧
    c.queue = q ∧ c.opcode = op ∧ hasRow c = true ∧ act.all (pb c 0 == ·) = true ∧ startCheck (takeStart c s) c = none ∧
    mirrorBit s c.comp = false) : Starts s k q op act c := by
  obtain ⟨h1, h2, h3, h4, h5, h6, h7, h8, h9⟩ := h
  refine ⟨⟨h1, h2, h3, h4, h5, h6, ?_⟩, h8, h9⟩
  intro a ha
  subst ha
  simpa using h7

/-- A command of composition 1's queue 0 from a source with OPER. -/
def mkCmd (op : Nat) (params : List Byte) : CmdRec :=
  { opcode := op, flags := 0, comp := 1, queue := 0, cseq := 0, ring := 5, job := 0xFFFF, ctx := 0, params, oper := true, lp := 32, frame := {} }
/-- Its result ring. -/
def ring5 : Ring := { comp := 1, num := 5, esize := 7, nent := 10, space := 3, offset := 0x400000, page := 100, npages := 1 }
/-- The device with the command at the head of its queue. -/
def queued (c : CmdRec) : State := { up with cmd := { queues := [(0, { depth := 64 }), (4, { depth := 64, waiting := [c] })], rings := [ring5] } }
/-- Parameters of MAP_CTL (Table 12-6): action, flags, space, size, tray, mode, entries, offset, base, ring. -/
def mapBytes (act fl x sz b5 b6 b7 off base r : Nat) : List Byte :=
  le 1 act ++ le 1 fl ++ le 2 x ++ le 1 sz ++ le 1 b5 ++ le 1 b6 ++ le 1 b7 ++ le 8 off ++ le 8 base ++ le 8 0 ++ le 2 r ++ zeros 30

/-- Composition 1's effects go to a Second. -/
def logged (s : State) : State := { s with
  regs := s.regs ++ [cw 0x0A000000 1, cw 0x0A000010 2]
  flt.second.leading := 3 }

theorem witness_CommandsStart :
    (∀ r ∈ cmdRows, AtHead (queued (mkCmd r.2.1 (le 1 (r.2.2.getD 0)))) 1 0 r.2.1 r.2.2 (mkCmd r.2.1 (le 1 (r.2.2.getD 0))) ∧
      (r.2.1 ≠ 0x03 → (startCheck (takeStart (mkCmd r.2.1 (le 1 (r.2.2.getD 0))) (queued (mkCmd r.2.1 (le 1 (r.2.2.getD 0)))))
        (mkCmd r.2.1 (le 1 (r.2.2.getD 0)))).isSome = true)) ∧
    (let c := mkCmd 0x11 (le 8 3 ++ le 8 0);
     let s := logged (queued c);
      AtHead s 1 0 0x11 none c ∧ startCheck (takeStart c s) c = none ∧ logging s 1 = true ∧ acking s = true ∧ spaceRow s 1 (pf c 0 2) false = 0 ∧
      (s.xlt.extents.find? (fun e => e.2.space == pf c 0 2 && e.2.offset == pf c 8 8)).isSome) := by
  refine ⟨?_, ⟨by decide +kernel, by decide +kernel, rfl, rfl, rfl, by decide, ?_⟩, ?_⟩
  · intro r h
    constructor
    · have g : ∀ r ∈ cmdRows, cmdPathUp (queued (mkCmd r.2.1 (le 1 (r.2.2.getD 0)))) = true ∧
          startable (queued (mkCmd r.2.1 (le 1 (r.2.2.getD 0)))) 1 0 = some (mkCmd r.2.1 (le 1 (r.2.2.getD 0))) ∧
          hasRow (mkCmd r.2.1 (le 1 (r.2.2.getD 0))) = true ∧ r.2.2.all (pb (mkCmd r.2.1 (le 1 (r.2.2.getD 0))) 0 == ·) = true := by decide +kernel
      obtain ⟨a, b, d, e⟩ := g r h
      refine ⟨a, b, rfl, rfl, rfl, d, ?_⟩
      intro x hx
      rw [hx] at e ⊢
      simpa using e
    · revert r
      decide +kernel
  · intro a h
    cases h
  · decide +kernel

/-- A NOP of composition 1, queue 0, as a command packet, in a frame from MAC 0xA1. -/
def nopPkt : List Byte := le 1 1 ++ [0, 0, 1, 0, 0] ++ le 2 0 ++ le 4 0 ++ le 2 0 ++ le 2 0xFFFF ++ le 8 0 ++ le 8 0
def nopHdr : List Byte := le 2 0x1008 ++ le 2 32 ++ zeros 8
def nopFrame : CmdFrame := { srcMac := 0xA1, dstMac := 0x77, bytes := nopHdr ++ le 4 (crc32c nopHdr) ++ nopPkt ++ le 4 (crc32c nopPkt) }
/-- A source entry lets MAC 0xA1 command composition 1, or 2. -/
def entitled (k : Nat) : State := { queued (mkCmd 1 []) with
  regs := up.regs ++ [cw 0x08000010 0x77, cw 0x08010000 (0x800F0000 + k), cw 0x08010004 0x3FF, cw 0x08010014 0xA100]
  cmd.queues := [(0, { depth := 64 }), (4, { depth := 64 })] }

theorem witness_CommandsTaken :
    (let s := entitled 1;
      running s = true ∧ s.dev.devState ≠ .bivouac ∧ isLport s 32 = true ∧ live s 32 = true ∧ modeOf s 32 = 4 ∧ addressed s 32 nopFrame = true ∧
      frameOk nopFrame = true ∧ hostRdy s = true ∧ (List.range 256).find? (srcMatch s 32 nopFrame) = some 0 ∧
      bit (bits (srcWord s 0 0) 19 16) 0 = true ∧ compLive s 1 = true ∧ conf s 1 = false ∧ (queue s 1 0).depth ≠ 0 ∧
      cseqDiff 0 (oldest (queue s 1 0)) < (queue s 1 0).depth ∧ 0 ≤ cseqDiff 0 (queue s 1 0).next ∧ (queue s 1 0).waiting = [] ∧
      ((cmdOf nopFrame 32 false).comp, (cmdOf nopFrame 32 false).queue, (cmdOf nopFrame 32 false).cseq) = (1, 0, 0) ∧
      bits (srcWord s 0 0) 5 0 = 1 ∧ bits (srcWord (entitled 2) 0 0) 5 0 = 2 ∧
      (List.range 256).find? (srcMatch (entitled 2) 32 nopFrame) = some 0) ∧
    (let s := queued (mkCmd 1 []);
      addressed { s with regs := s.regs ++ [cw 0x08000010 0x77] } 32 nopFrame = true ∧ frameOk { nopFrame with fcsOk := false } = false ∧
      hostRdy { s with cmd.pressed := true } = false) ∧
    (∀ i, i < 256 → srcMatch { queued (mkCmd 1 []) with regs := up.regs ++ [cw 0x08000010 0x77] } 32 nopFrame i = false) ∧
    (let e : Entry := { type := 2, status := 0, payload := zeros 48 };
     let r := { ring5 with waiting := [e] };
     let s := { queued (mkCmd 1 []) with cmd.rings := [r] };
      running s = true ∧ findRing s 1 5 = some r ∧ ringSpace r = true) := by decide +kernel

/-- USAGE_READ and STATS_READ of a source without OPER. -/
def mkUser (op : Nat) (params : List Byte) : CmdRec := { mkCmd op params with oper := false }

theorem witness_PlainCommands :
    Starts (queued (mkCmd 1 [])) 1 0 0x01 none (mkCmd 1 []) ∧
    (let c := mkCmd 2 (le 4 0x0C ++ le 4 2); Starts (queued c) 1 0 0x02 none c ∧ pf c 0 4 + 4 * pf c 4 4 ≤ windowsEnd) ∧
    (let c := mkCmd 2 (le 4 0x0CFFFFFC ++ le 4 2); Starts (queued c) 1 0 0x02 none c ∧ windowsEnd < pf c 0 4 + 4 * pf c 4 4) ∧
    (let c := mkCmd 3 (le 4 0x03000008 ++ le 4 1 ++ le 8 0); Starts (queued c) 1 0 0x03 none c ∧ pf c 4 4 = 1 ∧ isM (pf c 0 4) = true ∧ pf c 0 4 % 4 = 0 ∧
      pf c 0 4 < 0x0D000000) ∧
    (let c := mkCmd 3 (le 4 0x0800000C ++ le 4 1 ++ le 8 0x123); Starts (queued c) 1 0 0x03 none c ∧ pf c 4 4 = 1 ∧ pf c 0 4 = 0x0800000C) ∧
    (let c := mkCmd 0x70 (le 8 5); Starts (queued c) 1 0 0x70 none c ∧ pb c 0 = 5 ∧ pf c 2 2 = 0) ∧
    (let c := mkUser 0x70 (le 8 1); Starts (queued c) 1 0 0x70 none c ∧ pb c 0 = 1) ∧
    (let c := mkUser 0x72 (le 8 0x101); Starts (queued c) 1 0 0x72 none c ∧ pb c 1 = 1 ∧ (comp (queued c) (pb c 1)).made = true) ∧
    (let c := mkUser 0x72 (le 8 0x201); Starts (queued c) 1 0 0x72 none c ∧ pb c 1 ≠ 1) ∧
    (let c := mkCmd 0x61 []; let s := { queued c with dev := { devUp with devState := .quiesced } }; Starts s 1 0 0x61 none c ∧ s.cmd.longs = []) ∧
    (let c := mkCmd 0x61 []; Starts (queued c) 1 0 0x61 none c) :=
  ⟨starts_of (by decide +kernel), ⟨starts_of (by decide +kernel), by decide⟩, ⟨starts_of (by decide +kernel), by decide⟩,
   ⟨starts_of (by decide +kernel), by decide⟩, ⟨starts_of (by decide +kernel), by decide⟩, ⟨starts_of (by decide +kernel), by decide⟩,
   ⟨starts_of (by decide +kernel), by decide⟩, ⟨starts_of (by decide +kernel), by decide +kernel⟩, ⟨starts_of (by decide +kernel), by decide⟩,
   ⟨starts_of (by decide +kernel), rfl⟩, starts_of (by decide +kernel)⟩

/-- Every space is in use. -/
def spacesFull (s : State) : State := { s with xlt.spaces := (List.range 1024).map fun x => (x, { comp := 1 }) }
/-- Space 3 and job 8 have nothing in them. -/
def emptySpace (s : State) : State := { s with
  xlt.extents := [], cmd.rings := []
  xlt.jobs := up.xlt.jobs ++ [(8, { comp := 1, pairs := [(3, 7)] }), (9, { comp := 2, pairs := [] })] }

theorem found {α : Type} {l : List (Nat × α)} {k : Nat} (h : k ∈ l.map (·.1)) : (mget l k).isSome := by
  induction l with
  | nil => cases h
  | cons p l ih =>
    rw [mget]
    split
    · rfl
    · exact ih ((List.mem_cons.mp h).resolve_left (by assumption))

theorem spacesFull_full (s : State) (y : Nat) (h : y < 1024) : (mget (spacesFull s).xlt.spaces y).isSome := by
  apply found
  simp [spacesFull, h]

theorem witness_SpacesAndJobs :
    (let c := mkCmd 0x10 (mapBytes 1 0 0 0 0 0 0 0 0 0); Starts (queued c) 1 0 0x10 (some 1) c ∧ mget (queued c).xlt.spaces 0 = none ∧
      Starts (spacesFull (queued c)) 1 0 0x10 (some 1) c ∧ ∀ y, y < 1024 → (mget (spacesFull (queued c)).xlt.spaces y).isSome) ∧
    (let c := mkCmd 0x10 (mapBytes 2 0 3 0 0 0 0 0 0 0); Starts (emptySpace (queued c)) 1 0 0x10 (some 2) c ∧ spaceRow (emptySpace (queued c)) 1 (pf c 2 2) false = 0 ∧
      (emptySpace (queued c)).xlt.extents = [] ∧ (emptySpace (queued c)).dir.regions = [] ∧ (emptySpace (queued c)).cmd.rings = []) ∧
    (let c := mkCmd 0x10 (mapBytes 2 0 4 0 0 0 0 0 0 0); Starts (queued c) 1 0 0x10 (some 2) c ∧ spaceRow (queued c) 1 (pf c 2 2) false ≠ 0) ∧
    (let c := mkCmd 0x12 (le 4 8 ++ le 2 0x1C03 ++ zeros 10); Starts (queued c) 1 0 0x12 none c ∧ pf c 0 2 ≠ 0xFFFF ∧ mget (queued c).xlt.jobs (pf c 0 2) = none ∧
      ∀ p ∈ jobPairs c, p.2 ≠ 0 → spaceRow (queued c) 1 p.1 false = 0) :=
  ⟨⟨starts_of (by decide +kernel), by decide +kernel, starts_of (by decide +kernel), spacesFull_full _⟩,
   ⟨starts_of (by decide +kernel), by decide +kernel⟩, ⟨starts_of (by decide +kernel), by decide +kernel⟩,
   ⟨starts_of (by decide +kernel), by decide +kernel⟩⟩
theorem witness_JobDestroy :
    (let c := mkCmd 0x13 (le 8 8); Starts (emptySpace (queued c)) 1 0 0x13 none c ∧
      mget (emptySpace (queued c)).xlt.jobs (pf c 0 2) = some { comp := 1, pairs := [(3, 7)] } ∧ jobNamed (emptySpace (queued c)) (pf c 0 2) = false) :=
  ⟨starts_of (by decide +kernel), by decide +kernel, by decide +kernel⟩
theorem witness_JobDestroy_denied :
    (let c := mkCmd 0x13 (le 8 9); Starts (emptySpace (queued c)) 1 0 0x13 none c ∧ (mget (emptySpace (queued c)).xlt.jobs (pf c 0 2)).map (·.comp) = some 2) :=
  ⟨starts_of (by decide +kernel), by decide +kernel⟩

theorem run_free {s : State} {n : Nat} (hp : s.pages = []) (hn : n ≤ 2 ^ 25) : ∃ a, chooseRun s n none = some a := by
  have hr (a : Nat) : runFree s a n = true := by rw [runFree, hp]; rfl
  rw [← Option.isSome_iff_exists, chooseRun, List.find?_isSome]
  by_cases h : freeVal s % 2 ^ 25 + n ≤ 2 ^ 25
  · exact ⟨freeVal s % 2 ^ 25, List.mem_append_left _ (List.mem_filter.mpr ⟨List.mem_cons_self .., decide_eq_true (Nat.le_refl _)⟩),
      Bool.and_eq_true_iff.mpr ⟨hr _, decide_eq_true h⟩⟩
  · have h0 : 0 < freeVal s % 2 ^ 25 := by omega
    exact ⟨0, List.mem_append_right _ (List.mem_filter.mpr ⟨List.mem_cons_self .., decide_eq_true h0⟩),
      Bool.and_eq_true_iff.mpr ⟨hr _, decide_eq_true (by omega)⟩⟩

theorem run_fits {s : State} {k a n : Nat} (hq : (comp s k).hbmQ = [64, 64, 64, 64]) (hu : (comp s k).hbmUse = [0, 0, 0, 0]) (hn : n ≤ 8) :
    hbmFits (comp s k) (runPerCrest a n) = true := by
  simp [hbmFits, hq, hu, runPerCrest, List.range_succ]
  omega

theorem run_ok {s t : State} {k n : Nat} (hp : t.pages = []) (hq : (comp s k).hbmQ = [64, 64, 64, 64]) (hu : (comp s k).hbmUse = [0, 0, 0, 0])
    (hn : n ≤ 8) : ∃ a, chooseRun t n none = some a ∧ hbmFits (comp s k) (runPerCrest a n) = true := by
  obtain ⟨a, h⟩ := run_free (s := t) hp (Nat.le_trans hn (by decide : 8 ≤ 2 ^ 25))
  exact ⟨a, h, run_fits hq hu hn⟩

/-- Region 6 of space 3 is PROTECTED, region 7 PUBLISHED. -/
def withRegions (s : State) : State := { s with dir.regions := [(6, { space := 3, base := 0, size := 0x10000, mode := 2 }), (7, { space := 3, base := 0x10000, size := 0x10000, mode := 1 })] }

theorem witness_ObjectsMapped :
    (let c := mkCmd 0x10 (mapBytes 3 1 3 21 0 0 0 0x800000 0 0);
     let s := queued c;
     let off := pf c 8 8;
     let size := 2 ^ pb c 4;
      spaceRow s 1 (pf c 2 2) false = 0 ∧ Starts s 1 0 0x10 (some 3) c ∧ (off % size = 0 ∧ pf c 16 8 % size = 0 ∧ hitsExtent s (pf c 2 2) off size = false ∧
      hitsRing s (pf c 2 2) off size = false ∧ 21 ≤ pb c 4 ∧ pb c 4 ≤ 30) ∧ bit (pb c 1) 0 = true ∧ mget s.xlt.extents 2 = none ∧
      ∃ a, chooseRun (useFree s) (size / pageSize) none = some a ∧ hbmFits (comp s 1) (runPerCrest a (size / pageSize)) = true) ∧
    (let c := mkCmd 0x10 (mapBytes 3 0 3 21 0 0 0 0x800000 0x600000 0);
     let s := queued c;
      Starts s 1 0 0x10 (some 3) c ∧ pf c 8 8 % 2 ^ pb c 4 = 0 ∧ pf c 16 8 % 2 ^ pb c 4 = 0 ∧ hitsExtent s 3 (pf c 8 8) (2 ^ pb c 4) = false ∧
      hitsRing s 3 (pf c 8 8) (2 ^ pb c 4) = false ∧ pb c 4 = 21 ∧ bit (pb c 1) 0 = false ∧ trayValid s (pb c 6) = true ∧
      (comp s 1).trayUse + 2 ^ pb c 4 / pageSize ≤ (comp s 1).trayQ * 512) ∧
    (let c := mkCmd 0x10 (mapBytes 4 0 3 16 2 0 0 0 0 0);
      Starts (queued c) 1 0 0x10 (some 4) c ∧ regionBad (queued c) c = false ∧ pb c 5 ≠ 0 ∧ mget (queued c).dir.regions 0 = none) ∧
    (let c := mkCmd 0x10 (mapBytes 4 0 3 25 0 0 0 0x2000000 0 0);
     let s := queued c;
      Starts s 1 0 0x10 (some 4) c ∧ regionBad s c = false ∧ pb c 5 = 0 ∧ ∃ a, chooseRun (useFree (useFree s)) (4 * (2 ^ pb c 4 / 2 ^ 25)) none = some a ∧
      hbmFits (comp s 1) (runPerCrest a (4 * (2 ^ pb c 4 / 2 ^ 25))) = true) ∧
    (let c := mkCmd 0x10 (mapBytes 5 0 3 0 0 0 0 0 0 0);
     let s := withRegions (queued c);
      Starts s 1 0 0x10 (some 5) c ∧ (basedAt s (pf c 2 2) (pf c 8 8)).map (fun r => (r.1, r.2.removing, r.2.mode)) = some (6, false, 2)) ∧
    (let c := mkCmd 0x10 (mapBytes 6 0 3 6 0 0 6 0x800000 0 9);
     let s := queued c;
     let m := ringPages (pb c 4) (pb c 7);
      Starts s 1 0 0x10 (some 6) c ∧ (pf c 8 8 % pageSize = 0 ∧ pf c 8 8 + m * pageSize ≤ 2 ^ 46 ∧ findRing s 1 (pf c 32 2) = none ∧
      hitsExtent s 3 (pf c 8 8) (m * pageSize) = false ∧ hitsRegion s 3 (pf c 8 8) (m * pageSize) = false ∧ hitsRing s 3 (pf c 8 8) (m * pageSize) = false ∧
      s.cmd.rings.length < 4096) ∧ ∃ a, chooseRun s m none = some a ∧ hbmFits (comp s 1) (runPerCrest a m) = true) ∧
    (let c := mkCmd 0x10 (mapBytes 7 0 0 0 0 0 0 0 0 5);
      Starts (queued c) 1 0 0x10 (some 7) c ∧ findRing (queued c) 1 (pf c 32 2) = some ring5 ∧ ringNamed (queued c) 1 5 = false) ∧
    (let c := mkCmd 0x11 (le 8 3 ++ le 8 0);
     let s := queued c;
      Starts s 1 0 0x11 none c ∧ spaceRow s 1 (pf c 0 2) false = 0 ∧
      (s.xlt.extents.find? (fun e => e.2.space == pf c 0 2 && e.2.offset == pf c 8 8)).map (·.1) = some 0 ∧ (mget s.xlt.extents 0).map (·.draining) = some false ∧
      s.dir.regions = []) ∧
    (let c := mkCmd 0x43 (le 8 3 ++ le 8 0x10000 ++ le 8 5);
     let s := withRegions (queued c);
      Starts s 1 0 0x43 none c ∧ spaceRow s 1 (pf c 0 2) false = 0 ∧ (basedAt s (pf c 0 2) (pf c 8 8)).map (fun r => (r.1, r.2.mode)) = some (7, 1)) := by
  refine ⟨⟨by decide +kernel, starts_of (by decide +kernel), by decide +kernel, by decide, by decide +kernel, ?_⟩, ⟨starts_of (by decide +kernel), by decide +kernel⟩,
    ⟨starts_of (by decide +kernel), by decide +kernel⟩, ⟨starts_of (by decide +kernel), by decide +kernel, by decide, ?_⟩, ⟨starts_of (by decide +kernel), by decide +kernel⟩,
    ⟨starts_of (by decide +kernel), by decide +kernel, ?_⟩, ⟨starts_of (by decide +kernel), by decide +kernel⟩, ⟨starts_of (by decide +kernel), by decide +kernel⟩,
    ⟨starts_of (by decide +kernel), by decide +kernel⟩⟩ <;>
  exact run_ok rfl rfl rfl (by decide)

/-- A tray request of request 10. -/
def trayReq : TrayReq := { tag := 3, tray := 0, lp := 16, tc := 1, crest := 0, pkt := memPkt 0x01 0x200040 8 [], ext := some 1, sentAt := 5, why := .req 10 }
/-- The command at the head of composition 0's queue 0; composition 1 not made, endpoint 9 heard as node 77. -/
def lone (c : CmdRec) : State := { up with
  comps := [(0, { st := 1 })], cmd := { queues := [(0, { depth := 64, waiting := [{ c with comp := 0 }] })] }, flt.heard := [(9, 77, 1000000)] }

theorem witness_DeviceCommands :
    (let c := mkCmd 0x60 (le 8 0);
     let s := queued c; Starts s 1 0 0x60 none c ∧ s.dev.devState = .full ∧ s.eng.descs = [] ∧ s.cards = []) ∧
    (let c := mkCmd 0x60 (le 8 0);
     let s := { queued c with dev := { devUp with devState := .quiesced } }; Starts s 1 0 0x60 none c) ∧
    (let s : State := { up with dev := { devUp with devState := .quiesced, drainAt := some 2000000 }, xlt.trays := [trayReq], xlt.reqs := [flying trayReq.pkt] };
      running s = true ∧ s.eng.descs = [] ∧ s.haul.descs = [] ∧ ∀ r ∈ s.xlt.trays, r.why = .req 10) ∧
    (let c := mkCmd 0x62 (le 8 0);
     let s := queued c; Starts s 1 0 0x62 none c ∧ isLport s (pf c 0 2) = true ∧ isKmt s (pf c 0 2) = true ∧ modeOf s (pf c 0 2) = 1 ∧ s.xlt.trays = [] ∧ s.sw.capture = none) ∧
    (let c := { mkCmd 0x63 (le 4 9 ++ le 4 6) with comp := 0 };
     let s := lone c; Starts s 0 0 0x63 none c ∧ s.dev.devState = .full ∧ mayStart s = true ∧ pf c 4 4 ≠ 0 ∧
      s.flt.heard.find? (fun h => h.1 == pf c 0 4 && decide (s.clock.clk ≤ h.2.2 + 15000)) = some (pf c 0 4, 77, 1000000)) ∧
    (let c := mkCmd 0x64 [];
     let s := { queued c with dev := { devUp with devState := .seconding } }; Starts s 1 0 0x64 none c ∧ s.cmd.longs = []) :=
  ⟨⟨starts_of (by decide +kernel), by decide⟩, starts_of (by decide +kernel), by decide +kernel, ⟨starts_of (by decide +kernel), by decide +kernel⟩,
   ⟨starts_of (by decide +kernel), by decide +kernel⟩, ⟨starts_of (by decide +kernel), rfl⟩⟩

/-- Composition 2 is in the state given. -/
def second (k : Comp) (s : State) : State := { s with comps := s.comps ++ [(2, k)] }
/-- Composition 1 captures into page 40. -/
def capturing (s : State) : State := { s with
  regs := s.regs ++ [cw 0x0B000000 7], pages := [(40, { comp := 1, share := .ls })]
  sw.capture := some { space := 3, offset := 0x1000000, size := 0x200000, comp := 1, pages := [40] } }

theorem witness_CompositionCommands :
    (let c := mkCmd 0x50 (le 1 2 ++ le 1 1 ++ le 2 0 ++ le 2 16 ++ le 2 0 ++ le 2 0 ++ le 2 0 ++ le 4 0 ++ le 4 4 ++ le 4 4 ++ le 4 4 ++ le 4 4 ++ le 4 2 ++ le 4 0);
     let s := queued c; Starts s 1 0 0x50 none c ∧ pb c 0 = 2 ∧ (comp s 2).st = 0 ∧ pf c 4 2 = 16 ∧ (∀ i, i < 4 → pf c (4 + 2 * i) 2 ≤ 4096) ∧
      pb c 1 < 2 ∧ quotaBad s c = false) ∧
    (let c := mkCmd 0x52 (le 8 2);
     let s := second { st := 1 } (queued c); Starts s 1 0 0x52 none c ∧ pb c 0 = 2 ∧ (comp s 2).st = 1 ∧ s.cards = [] ∧ s.haul = {} ∧ unitsOf s 2 = [] ∧ s.cmd.longs = []) ∧
    (let c := mkCmd 0x51 (le 8 2);
     let s := second { st := 1 } (queued c); Starts s 1 0 0x51 none c ∧ pb c 0 = 2 ∧ (comp s 2).st = 1 ∧ s.cards = [] ∧ s.haul = {} ∧ unitsOf s 2 = [] ∧
      kgens s 2 = [] ∧ (∀ x ∈ s.xlt.spaces, x.2.comp ≠ 2) ∧ s.eng.tables = [] ∧ (∀ r ∈ s.cmd.rings, r.comp ≠ 2) ∧ s.sw.capture = none ∧ s.cmd.longs = []) ∧
    (let s := second { st := 3, scrubAt := some 5, remPages := [50] } up;
      running s = true ∧ (∀ e ∈ s.comps, e.1 ≠ 2 → e.2.st ≠ 2 ∧ e.2.st ≠ 3) ∧ (comp s 2).st = 3 ∧ (comp s 2).scrubAt = some 5 ∧ mget s.pages 50 = none) ∧
    (let c := mkCmd 0x71 (le 4 0x701 ++ le 4 1 ++ le 2 3 ++ le 1 21 ++ zeros 5 ++ le 8 0x1000000);
     let s := queued c; Starts s 1 0 0x71 (some 1) c ∧ (spaceRow s 1 (pf c 8 2) false = 0 ∧ s.sw.capture = none ∧ pf c 16 8 + 2 ^ pb c 10 ≤ 2 ^ 46 ∧
      hitsExtent s 3 (pf c 16 8) (2 ^ pb c 10) = false ∧ hitsRegion s 3 (pf c 16 8) (2 ^ pb c 10) = false ∧ hitsRing s 3 (pf c 16 8) (2 ^ pb c 10) = false) ∧
      ∃ a, chooseRun s (2 ^ pb c 10 / pageSize) none = some a ∧ hbmFits (comp s 1) (runPerCrest a (2 ^ pb c 10 / pageSize)) = true) ∧
    (let c := mkCmd 0x71 (le 8 2 ++ zeros 16);
     let s := capturing (queued c); Starts s 1 0 0x71 (some 2) c ∧ s.sw.capture.map (·.comp) = some 1) ∧
    (let c := mkCmd 0x71 (le 8 3 ++ zeros 16);
     let s := capturing (queued c); Starts s 1 0 0x71 (some 3) c ∧ s.sw.capture.map (·.comp) = some 1) :=
  ⟨⟨starts_of (by decide +kernel), by decide +kernel⟩, ⟨starts_of (by decide +kernel), by decide +kernel⟩, ⟨starts_of (by decide +kernel), by decide +kernel⟩,
   by decide +kernel, ⟨starts_of (by decide +kernel), by decide +kernel, run_ok rfl rfl rfl (by decide)⟩, ⟨starts_of (by decide +kernel), rfl⟩,
   ⟨starts_of (by decide +kernel), rfl⟩⟩

/-! ### Engine units -/

/-- Header of an engine descriptor (Table 6-4) of composition 1 under job 7, on ring 5: kind, unit, generation, descriptor ID, body length,
formats, deadline, items. -/
def descHdr (kind unit gen id blen fmtIn fmtOut dl cnt : Nat) : List Byte :=
  le 1 kind ++ [0] ++ le 1 unit ++ le 1 1 ++ le 2 gen ++ le 2 7 ++ le 4 id ++ le 2 blen ++ le 1 fmtIn ++ le 1 fmtOut ++ le 8 dl ++ le 8 cnt ++
  le 2 5 ++ zeros 30
/-- Body of a collective (Table 7-2): operation, level and depth, members, whose table lies at 64 of space 3; SUM, parent and destination
endpoint 5. -/
def collBody (op lv nm : Nat) : List Byte :=
  le 1 op ++ le 1 (if 4 ≤ op then 0 else 1) ++ le 1 lv ++ [0] ++ le 2 nm ++ le 2 0 ++ le 4 5 ++ zeros 4 ++ le 4 0 ++ le 4 5 ++ le 2 3 ++ le 2 0 ++ le 4 0 ++ le 8 64 ++
  le 8 77 ++ le 4 0 ++ zeros 12
/-- An all-reduce of four INT32 elements with one member, on tile 3 at generation 5: root, leaf under a parent, and level 2 of 2. -/
def collRaw (op lv : Nat) (cnt : Nat := 4) (dl : Nat := 0) : List Byte := descHdr 1 3 5 9 64 0x0C 0x0C dl cnt ++ collBody op lv 1
/-- Tile 3 runs a role for composition 1 at generation 5. -/
def roleUp (role : Nat) : EUnit := { role, comp := 1, gen := 5 }
def engUp (role : Nat) (s : State) : State := { s with
  cmd := { s.cmd with rings := [ring5] }
  eng.units := [(3, roleUp role)] }
/-- The member is endpoint 5. -/
def nodeOf (n : Node) : Node := { n with members := [{ ep := 5 }], segs := [0] }
def nodeDesc (raw : List Byte) (n : Node) : Desc :=
  { id := 50, unit := 3, raw, shares := [{ tile := 3, lo := 0, hi := fld raw 24 8 }], work := .node (nodeOf n) }
/-- The device with an active node. -/
def noded (raw : List Byte) (n : Node) : State := { engUp 1 up with eng.descs := [nodeDesc raw n], xlt.nextId := 60 }

theorem endable_of {s : State} {d : Desc} (h : findDesc s d.id = some d ∧ d.id ≠ 0 ∧ d.posting = false ∧ d.standby = false ∧ d.notify = false ∧
    mirrorBit s d.comp = false ∧ seconding s = false ∧ d.ring ≠ 0 ∧ (findRing s d.comp d.ring).map (fun r => (ringSpace r, r.waiting)) = some (true, [])) :
    Endable s d := by
  obtain ⟨a, b, c, e, f, g, i, j, k⟩ := h
  refine ⟨a, b, c, e, f, g, i, j, ?_⟩
  cases hr : findRing s d.comp d.ring with
  | none => rw [hr] at k; cases k
  | some r =>
    rw [hr] at k
    simp only [Option.map_some, Option.some.injEq, Prod.mk.injEq] at k
    exact ⟨r, rfl, k.1, k.2⟩

/-- A role change of tile 3 is under way. -/
def changing (st : Nat) : State :=
  let s := noded (collRaw 1 5) {}
  { s with eng.units := [(3, { roleUp 1 with st, change := some { role := 2, comp := 1, drainAt := some 5 } })] }

theorem witness_RolesAssigned :
    (let c := mkCmd 0x21 ([3, 0, 2, 1] ++ zeros 4);
     let s := queued c; Starts s 1 0 0x21 none c ∧ pb c 1 = 0 ∧ pb c 0 = 3 ∧ unitThere s 3 = true ∧ (eunit s 3).parent = none ∧ (eunit s 3).role = 0 ∧
      (eunit s 3).st = 0 ∧ pb c 3 = 1) ∧
    (let c := mkCmd 0x21 ([3, 1, 1, 1] ++ zeros 4);
     let s := queued c; Starts s 1 0 0x21 none c ∧ pb c 1 = 1 ∧ unitThere s (ukey .haul 3) = true ∧ (eunit s (ukey .haul 3)).st = 0) ∧
    (let s := changing 1; running s = true ∧ (eunit s 3).change = some { role := 2, comp := 1, drainAt := some 5 } ∧
      activeOn s 3 = [nodeDesc (collRaw 1 5) {}] ∧ Endable s (nodeDesc (collRaw 1 5) {})) ∧
    (let s : State := { changing 1 with eng.descs := [] }; running s = true ∧ (eunit s 3).st = 1 ∧ (eunit s 3).rstBusy = false ∧ unitIdle s 3 = true) ∧
    (let s := changing 2; (eunit s 3).st = 2 ∧ (eunit s 3).rstBusy = false ∧ (eunit s 3).change.isSome) :=
  ⟨⟨starts_of (by decide +kernel), by decide +kernel⟩, ⟨starts_of (by decide +kernel), by decide +kernel⟩,
   ⟨by decide +kernel, by decide +kernel, by decide +kernel, endable_of (by decide +kernel)⟩, by decide +kernel, by decide +kernel⟩

/-- Rope 64 of tiles 3 and 4, Haul Rope 32 of engines 0 and 1. -/
def roped : State := { up with eng.units := [(3, { parent := some 64 }), (4, { parent := some 64 }), (64, { formed := true, members := [3, 4], gen := 2 }),
  (128, { parent := some 160 }), (129, { parent := some 160 }), (160, { formed := true, members := [128, 129] })] }

theorem witness_UnitsFail :
    (let d := nodeDesc (collRaw 1 5 4 900000) {};
     let s := noded (collRaw 1 5 4 900000) {};
      running s = true ∧ Endable s d ∧ (activeOn s 3).filter (fun d => d.deadline != 0 && decide (d.deadline < s.clock.tb)) = [d]) ∧
    (∀ n ∈ [3, 64], cmdPathUp roped = true ∧ bit (0x80000000 : Word).toNat 31 = true ∧ topOf roped n = 64 ∧ unitThere roped 64 = true ∧ activeOn roped 64 = []) ∧
    (∀ n ∈ [1, 32], topOf roped (128 + n) = 160 ∧ unitThere roped 160 = true ∧ haulOn roped (160 - 128) = []) ∧
    (let s : State := { up with eng.units := [(3, { rstBusy := true, failed := true }), (130, { rstBusy := true, failed := true })] };
      running s = true ∧ (eunit s 3).rstBusy = true ∧ topOf s (128 + 2) = 130 ∧ (eunit s 130).rstBusy = true ∧ 3 ∈ tilesUnder s 3 ∧ 130 ∈ tilesUnder s 130) ∧
    activeOn up (topOf up 3) = [] ∧
    (let d := nodeDesc (collRaw 1 5) {};
     let s := noded (collRaw 1 5) {}; activeOn s (topOf s 3) = [d] ∧ Endable s d ∧ d.shares = [{ tile := 3, lo := 0, hi := 4 }]) ∧
    haulOn up (topOf up (128 + 2) - 128) = [] :=
  ⟨⟨by decide +kernel, endable_of (by decide +kernel), by decide +kernel⟩, by decide +kernel, by decide +kernel, by decide +kernel, by decide +kernel,
   ⟨by decide +kernel, endable_of (by decide +kernel), by decide⟩, by decide +kernel⟩

/-- A table record (Table 8-1) of table 1, INT32 rows of eight elements, version 3: eight rows in one shard at 0x1000 of space 3, at an
endpoint, without a Partner. -/
def tableRec (ep : Nat) : List Byte :=
  [1, 0x0C] ++ le 2 32 ++ le 4 3 ++ le 8 8 ++ [1, 0, 0, 0] ++ le 2 5 ++ le 2 0 ++ le 4 32 ++ zeros 68 ++
  le 4 0 ++ le 4 ep ++ le 4 0x3FFFF ++ [3, 0] ++ le 2 5 ++ le 2 0 ++ le 2 3 ++ le 4 0 ++ le 8 0x1000
/-- Table 1 of composition 1 under version 3. -/
def tabled (ep : Nat) (s : State) : State := { s with eng.tables := [(1, { comp := 1, last := 3, vers := [{ version := 3, bytes := tableRec ep }] })] }
/-- Body of a gather on table 1: SUM from endpoint 5 to endpoint 6. -/
def gatherRaw : List Byte := descHdr 2 3 5 9 32 0x0C 0x0C 0 4 ++ [1, 1, 0, 0] ++ le 4 5 ++ le 4 6 ++ le 4 0 ++ le 8 77 ++ zeros 8
/-- A batch on version 3 so far. -/
def onVer3 : Batch := { table := 1, version := 3 }
/-- A batch on version 3 with its share and its work so far. -/
def batchOf (g : GShare) (b : Batch) : Batch := { b with shares := [g] }
def batchDesc50 (g : GShare) (b : Batch) : Desc :=
  { id := 50, unit := 3, raw := gatherRaw, shares := [{ tile := 3, lo := 0, hi := 4 }], work := .batch (batchOf g b) }
def batched (ep : Nat) (g : GShare) (b : Batch) : State := { tabled ep (engUp 2 up) with eng.descs := [batchDesc50 g b], xlt.nextId := 60 }
/-- A packet of unit 3 in flight for descriptor 50. -/
def sentPkt (op dst : Nat) : Kmt := { opcode := op, comp := 1, len := 16, job := 7, src := 1, dst, tag := 21, payload := zeros 16 }
def sentFor (op tc dst : Nat) (what : SentFor) : ESent := { tag := 21, desc := 50, inp := tileInp 3, tc, pkt := sentPkt op dst, what, at_ := 900000 }
/-- Its answer. -/
def answerOf (op st src : Nat) : Kmt := { opcode := op, rsp := true, comp := 1, len := 16, job := 7, src, dst := 1, tag := 21, status := st, payload := zeros 16 }
def waitsFor (e : ESent) (s : State) : State := { s with eng.sent := [e] }

theorem sender_of {s : State} {lp : Nat} {p : Kmt} {e : ESent} (h : engTakes s lp = true ∧ p.rsp = true ∧ p.dst = selfEp s ∧ findSent s p = some e ∧
    e.need = [] ∧ mirrorBit s p.comp = false ∧ s.dev.devState ≠ .seconding) : AtSender s lp p e := by
  obtain ⟨a, b, c, d, f, g, i⟩ := h
  refine ⟨a, b, c, d, ?_, g, i⟩
  intro x hx
  rw [f] at hx
  cases hx

/-- The member table's read of a COLL_POST has its bytes: endpoint 5, as an endpoint or as a child node. -/
def tableRead (child : Nat) (c : CmdRec) : State :=
  let s := engUp 1 (queued c)
  { s with
    cmd.queues := [(0, { depth := 64 }), (4, { depth := 64, next := 1, busy := some c })]
    mem := (16777280, 5) :: (if child = 0 then [] else [(16777284, BitVec.ofNat 8 child)])
    reads := [(12, { comp := 1, pieces := [{ hbm := true, addr := 16777280, len := 16 }] })], xlt.nextId := 60
    eng := { s.eng with reads := [(12, .table c)] } }

theorem witness_WorkPosted :
    (let c := mkCmd 0x30 (collRaw 1 5);
     let s := engUp 1 (queued c); Starts s 1 0 0x30 none c ∧ (descRow s c.params).status = 0 ∧ collBad s (newDesc s c.params 1024 (.node {})) = false ∧ s.dir.regions = []) ∧
    (let c := mkCmd 0x30 (collRaw 1 5);
     let s : State := { engUp 1 (queued c) with eng.units := [(3, { role := 1, comp := 1, gen := 6 })] };
      Starts s 1 0 0x30 none c ∧ s.dev.devState = .full ∧ compLive s 1 = true ∧ pb c 2 = 3 ∧ unitThere s 3 = true ∧ (eunit s 3).gen ≠ pf c 4 2) ∧
    (∀ k ∈ [0, 128], let c := mkCmd 0x30 (collRaw 1 5);
     let s := tableRead k c;
     let d := newDesc s c.params 1024 (.node {});
      mget s.eng.reads 12 = some (.table c) ∧ (readDone s 12).map (·.1) = some 0 ∧ (descRow s c.params).status = 0 ∧ mirrorBit s d.comp = false ∧ collBad s d = false ∧
      tableBad d ((List.range d.nmemb).map fun j => slice ((readDone s 12).map (·.2) |>.getD []) (16 * j) 16) = decide (k = 128)) ∧
    (let c := mkCmd 0x31 gatherRaw;
     let s := tabled 6 (engUp 2 (queued c));
     let d := newDesc s c.params 1 (.batch { table := 0, version := 0 });
      Starts s 1 0 0x31 none c ∧ (descRow s c.params).status = 0 ∧ mirrorBit s d.comp = false ∧ ownTable s d.gTable d.comp = true ∧
      ((gtable s d.gTable).bind curVer).map (·.bytes) = some (tableRec 6) ∧ gatherBad d = false ∧ d.inFmt = recFmt (tableRec 6) ∧
      gatherOutOk d.inFmt d.outFmt = true ∧ d.count ≤ 2 ^ 24) ∧
    (let c := mkCmd 0x31 gatherRaw;
     let s := engUp 2 (queued c);
      Starts s 1 0 0x31 none c ∧ (descRow s c.params).status = 0 ∧ ownTable s 1 1 = false) ∧
    (let c := mkCmd 0x42 (le 8 3 ++ le 8 0x100); Starts (queued c) 1 0 0x42 none c ∧ (queued c).dir.regions = []) ∧
    (let c := mkCmd 0x42 (le 8 3 ++ le 8 0x100); recordRow (queued c) c (tableRec 6) = none ∧ recDelete (tableRec 6) = false ∧ mirrorBit (queued c) c.comp = false) ∧
    (let b := batchOf { next := 4 } { onVer3 with trailer := true };
     let s := waitsFor (sentFor 0x56 5 6 .trailer) (batched 6 { next := 4 } { onVer3 with trailer := true });
     let d := batchDesc50 { next := 4 } { onVer3 with trailer := true };
      AtSender s 8 (answerOf 0x56 0 6) (sentFor 0x56 5 6 .trailer) ∧ findDesc s 50 = some d ∧ d.batch? = some b ∧ Endable s d ∧ d.deadline = 0 ∧ d.fail = none) :=
  ⟨⟨starts_of (by decide +kernel), by decide +kernel⟩, ⟨starts_of (by decide +kernel), by decide +kernel⟩, by decide +kernel,
   ⟨starts_of (by decide +kernel), by decide +kernel⟩, ⟨starts_of (by decide +kernel), by decide +kernel⟩, ⟨starts_of (by decide +kernel), rfl⟩,
   by decide +kernel, ⟨sender_of (by decide +kernel), by decide +kernel, rfl, endable_of (by decide +kernel), by decide, rfl⟩⟩

/-- A packet of endpoint `src` for descriptor 9 on unit 3: opcode, format, phase, place and data. -/
def workPkt (op src fmt phase addr : Nat) (data : List Byte) : Kmt :=
  { opcode := op, comp := 1, len := 16 + data.length, job := 7, src, dst := 0x3FFFF, tag := 11, addr, payload := subBytes 3 fmt 5 9 phase 0 ++ data }
/-- Four INT32 elements, as elements and as a partial. -/
def fourInts : List Byte := le 4 1 ++ le 4 2 ++ le 4 3 ++ le 4 4
def fourSums : List Byte := le 8 1 ++ le 8 2 ++ le 8 3 ++ le 8 4
/-- The node's root and leaf forms: root of one level; leaf of two; root of two; barrier root. -/
def taken : Node := { chunks := [(0, { who := [0], acc := [(1, 0), (2, 0), (3, 0), (4, 0)] })] }
/-- What AtWork asks of a packet at a node of the share that holds its first item. -/
def atWorkB (s : State) (lp tc : Nat) (p : Kmt) (d : Desc) (sh : ShareSt) : Bool :=
  engTakes s lp && !p.rsp && (p.dst == selfEp s || p.dst == 0x3FFFF) &&
  decide (((senderRow (takeRx lp tc p s) lp tc p).or ((unitRow (takeRx lp tc p s) p).or (pktRow (takeRx lp tc p s) p))).status = 0) &&
  decide (pktDesc s p = some d) && decide (findDesc s d.id = some d) && decide (shareAt d p.addr = some (0, sh)) && !sh.dead && !d.posting &&
  !d.moving && !mirrorBit s d.comp && decide (s.dev.devState ≠ .seconding)
theorem at_work {s : State} {lp tc : Nat} {p : Kmt} {d : Desc} {sh : ShareSt} (h : atWorkB s lp tc p d sh = true) : AtWork s lp tc p d 0 sh := by
  simp only [atWorkB, Bool.and_eq_true, Bool.or_eq_true, Bool.not_eq_true', decide_eq_true_eq, beq_iff_eq] at h
  obtain ⟨⟨⟨⟨⟨⟨⟨⟨⟨⟨⟨a, b⟩, c⟩, d⟩, e⟩, f⟩, g⟩, i⟩, j⟩, k⟩, l⟩, m⟩ := h
  exact ⟨a, b, c, d, e, f, g, i, j, k, l, m⟩

theorem witness_NodesFoldAndRelease :
    (let s := noded (collRaw 1 5) {};
     let p := workPkt 0x50 5 0x0C 1 0 fourInts;
     let d := nodeDesc (collRaw 1 5) {};
      AtWork s 0 2 p d 0 { tile := 3, lo := 0, hi := 4 } ∧ d.level = 1 ∧ contributes d (nodeOf {}) (subContrib p) = true ∧ subPhase p = 1 ∧ d.coll ≠ 5 ∧
      (engData p).length = dataLen d.inFmt (chunkLen d 0)) ∧
    (let s := noded (collRaw 1 10) {};
     let p := workPkt 0x52 9 0x0E 2 0 fourSums;
     let d := nodeDesc (collRaw 1 10) {};
      AtWork s 24 2 p d 0 { tile := 3, lo := 0, hi := 4 } ∧ d.level = 2 ∧ contributes d (nodeOf {}) (subContrib p) = true ∧ subPhase p = 2 ∧
      (engData p).length = chunkLen d 0 * (fmtBits (partialFmt d.mode) / 8)) ∧
    (let s := noded (collRaw 5 5 1) {};
     let p := workPkt 0x53 5 0x0C 1 0 [];
     let d := nodeDesc (collRaw 5 5 1) {};
      AtWork s 0 2 p d 0 { tile := 3, lo := 0, hi := 1 } ∧ d.level = 1 ∧ contributes d (nodeOf {}) (subContrib p) = true ∧ d.coll = 5 ∧ engData p = []) ∧
    (let s := noded (collRaw 1 5) taken;
     let p := workPkt 0x50 5 0x0C 1 0 fourInts;
      AtWork s 0 2 p (nodeDesc (collRaw 1 5) taken) 0 { tile := 3, lo := 0, hi := 4 } ∧ (mgetD taken.chunks 0 {}).who.contains 0 = true) ∧
    (let raw := collRaw 1 5 1048576;
     let p := workPkt 0x50 5 0x0C 1 458752 [];
     let d := nodeDesc raw {};
      AtWork (noded raw {}) 0 2 p d 0 { tile := 3, lo := 0, hi := 1048576 } ∧ p.addr % 512 = 0 ∧ 0 + winSegs d ≤ (p.addr - 0) / 65536) ∧
    (let s := noded (collRaw 1 9) {};
     let p := workPkt 0x51 9 0x0C 0xFFFF 0 [];
     let d := nodeDesc (collRaw 1 9) {};
      AtWork s 24 2 p d 0 { tile := 3, lo := 0, hi := 4 } ∧ subPhase p = 0xFFFF ∧ engData p = [] ∧ d.level ≠ d.depth) ∧
    (let d := nodeDesc (collRaw 1 5) {}; AtWork (noded (collRaw 1 5) {}) 24 2 (workPkt 0x51 9 0x0C 0xFFFF 0 []) d 0 { tile := 3, lo := 0, hi := 4 } ∧ d.level = d.depth) ∧
    (∀ x ∈ [(0x52, SentFor.part 0, 0), (0x51, .release, 0), (0x52, .part 0, 2)],
      AtSender (waitsFor (sentFor x.1 2 6 x.2.1) (noded (collRaw 1 9) {})) 8 (answerOf x.1 x.2.2 6) (sentFor x.1 2 6 x.2.1)) ∧
    (let s := noded (collRaw 1 9) {}; 6 ≠ selfEp s ∧ routeOf s 6 = .port 8 ∧ live s 8 = true) :=
  ⟨⟨at_work (by decide +kernel), by decide +kernel⟩, ⟨at_work (by decide +kernel), by decide +kernel⟩, ⟨at_work (by decide +kernel), by decide +kernel⟩,
   ⟨at_work (by decide +kernel), by decide +kernel⟩, ⟨at_work (by decide +kernel), by decide +kernel⟩, ⟨at_work (by decide +kernel), by decide +kernel⟩,
   ⟨at_work (by decide +kernel), by decide +kernel⟩,
   by
    intro x h
    exact sender_of (by revert x; decide +kernel),
   by decide +kernel⟩

/-- An index packet: one bag with one entry, row 2. -/
def indexPkt (src : Nat) : Kmt := workPkt 0x54 src 0x0C 1 0 (le 2 1 ++ [1, 0] ++ zeros 4 ++ le 2 1 ++ zeros 6 ++ le 4 2)
/-- A share whose one round holds all four bags. -/
def roundOpen (r : Round) : GShare := { next := 4, rounds := [r], begun := true }
def fourBags : Round := { lo := 0, n := 4 }
/-- Flushing: bag 0 has counted row 2 twice. -/
def flushing : Round := { fourBags with phase := 1, bags := [(0, { counts := [(2, 2)] })] }
def gathering (b : Batch) : State := batched 6 (roundOpen fourBags) b
/-- A read of 32 bytes of HBM has its bytes. -/
def readOf (f : ReadFor) (s : State) : State := { s with
  reads := [(12, { comp := 1, pieces := [{ hbm := true, addr := 16777280, len := 32 }] })], mem := [(16777280, 9)]
  eng := { s.eng with reads := [(12, f)] } }
/-- A GROWREQ of a trunk's Talik: two rows of 32 bytes from space 3. -/
def growPkt : Kmt := { workPkt 0x55 9 0x0C 1 0 (le 2 3 ++ le 2 2 ++ le 2 32 ++ le 2 0 ++ le 4 32 ++ le 4 0 ++ le 8 0x1000 ++ le 4 0 ++ le 4 1) with dst := 1 }

theorem batch_work {s : State} {lp tc : Nat} {p : Kmt} {d : Desc} {sh : ShareSt}
    (h : engTakes s lp = true ∧ atWorkB (settleEng s) lp tc p d sh = true) : engTakes s lp = true ∧ AtWork (settleEng s) lp tc p d 0 sh :=
  ⟨h.1, at_work h.2⟩

theorem witness_BatchesWork :
    (let b : Batch := { onVer3 with folded := [(0, 0, 1)] };
     let d := batchDesc50 (roundOpen fourBags) b;
      (engTakes (gathering b) 0 = true ∧ AtWork (settleEng (gathering b)) 0 5 (indexPkt 5) d 0 { tile := 3, lo := 0, hi := 4 }) ∧
      d.batch? = some (batchOf (roundOpen fourBags) b) ∧ b.folded.contains (subContrib (indexPkt 5), (indexPkt 5).addr, subPhase (indexPkt 5)) = true) ∧
    (let d := batchDesc50 (roundOpen fourBags) onVer3;
     let s := gathering onVer3;
     let b := batchOf (roundOpen fourBags) onVer3;
      (engTakes s 24 = true ∧ AtWork (settleEng s) 24 5 (indexPkt 9) d 0 { tile := 3, lo := 0, hi := 4 }) ∧ (indexPkt 9).src ≠ d.srcEp ∧
      (engTakes s 0 = true ∧ AtWork (settleEng s) 0 5 (indexPkt 5) d 0 { tile := 3, lo := 0, hi := 4 }) ∧
      0 + byteAt (indexPkt 5).payload 18 ≤ 4 ∧ (indexPkt 5).src = d.srcEp ∧ gindexBad d b 0 (indexPkt 5) = false ∧ b.cut = [] ∧
      (∀ x ∈ gindexBags d (indexPkt 5), (((roundAt b 0 x.1).map fun r => mgetD (Round.bags r) x.1 {}).getD {}).entries + x.2.length ≤ 65536) ∧
      dedupUsed { fourBags with bags := (gindexBags d (indexPkt 5)).foldl (fun m e => mset m e.1 (takeChunk [] 8 0 false e.2 (mgetD m e.1 {}))) [] } ≤ 131072) ∧
    (let d := batchDesc50 (roundOpen flushing) onVer3;
     let s := batched 6 (roundOpen flushing) onVer3; running s = true ∧ findDesc s 50 = some d ∧ flushing.phase = 1 ∧ flushing.todo = [] ∧ flushing.out = []) ∧
    (let s : State := readOf (.hot 3 1 3 2) (gathering onVer3);
     let s : State := { s with eng := { s.eng with hot := [(3, { table := 1, version := 3 })] } };
      mget s.eng.reads 12 = some (.hot 3 1 3 2) ∧ (readDone s 12).map (·.1) = some 0 ∧ mirrorBit s 1 = false) ∧
    (let s : State := readOf (.serve 30 0) (engUp 2 up);
     let s : State := { s with eng := { s.eng with serves := [{ id := 30, unit := 3, wait := { lp := 24, tc := 5, pkt := growPkt }, rows := [none] }] } };
      (readDone s 12).map (·.1) = some 0 ∧ (s.eng.serves.find? (·.id == 30)).map (·.rows) = some [none]) ∧
    (∀ role ∈ [1, 2], let s := engUp role up;
      engTakes s 24 = true ∧ growPkt.dst = selfEp s ∧ ((senderRow (takeRx 24 5 growPkt s) 24 5 growPkt).or (unitRow (takeRx 24 5 growPkt s) growPkt)).status = 0 ∧
      (eunit s (subUnit growPkt)).role = role ∧ s.dir.regions = [] ∧ 2 ≤ growMax 32) ∧
    (let e := sentFor 0x55 5 6 (.rows 0 (some 0) 0 [2] false false);
     let s := waitsFor e (gathering onVer3); AtSender s 8 (answerOf 0x55 0 6) e ∧ findDesc s e.desc = some (batchDesc50 (roundOpen fourBags) onVer3)) ∧
    (∀ a ∈ [true, false], let e := sentFor 0x55 5 6 (.rows 0 (some 0) 0 [2] false a);
     let s := waitsFor e (gathering onVer3);
      running s = true ∧ s.eng.sent.find? (·.tag == 21) = some e ∧ findDesc s e.desc = some (batchDesc50 (roundOpen fourBags) onVer3) ∧
      fld (shardAt (boundRec s (batchOf (roundOpen fourBags) onVer3)) 0) 8 4 % 2 ^ 18 = 0x3FFFF ∧ e.pkt.dst ≠ selfEp s ∧
      routeOf s e.pkt.dst = .port 8 ∧ live s 8 = true) :=
  ⟨⟨batch_work (by decide +kernel), rfl, by decide⟩, ⟨batch_work (by decide +kernel), by decide, batch_work (by decide +kernel), by decide +kernel⟩,
   by decide +kernel, by decide +kernel, by decide +kernel, by decide +kernel, ⟨sender_of (by decide +kernel), by decide +kernel⟩, by decide +kernel⟩

/-- A SELECT of records of eight bytes from endpoint 5 to endpoint 6, whose program is one instruction. -/
def filterRaw (insn : Nat) : List Byte := descHdr 3 3 5 9 72 0x0B 0x0B 0 4 ++ [1, 1, 1, 0] ++ le 2 8 ++ zeros 26 ++ le 4 5 ++ le 4 6 ++ le 8 77 ++ zeros 16 ++ le 8 insn
def acceptAll : Nat := 0x5200000000000000
def runDesc50 (r : Run) : Desc := { id := 50, unit := 3, raw := filterRaw acceptAll, shares := [{ tile := 3, lo := 0, hi := 4 }], work := .run r }
def filtering (r : Run) : State := { engUp 3 up with eng.descs := [runDesc50 r], xlt.nextId := 60 }
/-- One record of endpoint 5. -/
def recordPkt : Kmt := workPkt 0x58 5 0x0B 1 0 (le 8 1 ++ le 8 7)

theorem witness_FiltersRun :
    (∀ i ∈ [acceptAll, 0xFF00000000000000], let c := mkCmd 0x32 (filterRaw i);
     let s := engUp 3 (queued c);
     let w := settleEng (takeStart c s);
     let d := runDesc (newDesc w c.params 1 (.run {}));
      Starts s 1 0 0x32 none c ∧ (descRow s c.params).status = 0 ∧ slotsFree w d = true ∧ mirrorBit w d.comp = false ∧
      progCheck d = if i = acceptAll then none else some (5, 0)) ∧
    (∀ f ∈ [({} : FShare), { seen := [(0, 1)] }], let r : Run := { shares := [f] };
     let d := runDesc50 r;
      AtWork (filtering r) 0 4 recordPkt d 0 { tile := 3, lo := 0, hi := 4 } ∧ d.run? = some r ∧ recordPkt.src = d.srcEp ∧ fld recordPkt.payload 16 2 = 1 ∧
      (cutRecords d 1 ((engData recordPkt).drop 8)).isSome ∧ recordPkt.addr + 1 ≤ d.count ∧ (evalWindow { tile := 3, lo := 0, hi := 4 } f).contains 0 = true ∧
      seenRec f 0 = decide (f.seen ≠ [])) ∧
    (let r : Run := { shares := [{}], trailer := true };
     let s := waitsFor (sentFor 0x59 4 6 .trailer) (filtering r);
      AtSender s 8 (answerOf 0x59 0 6) (sentFor 0x59 4 6 .trailer) ∧ findDesc s 50 = some (runDesc50 r) ∧ (runDesc50 r).run? = some r ∧
      Endable s (runDesc50 r) ∧ (runDesc50 r).deadline = 0 ∧ (runDesc50 r).fail = none) := by
  refine ⟨?_, ?_, ⟨sender_of (by decide +kernel), by decide +kernel, rfl, endable_of (by decide +kernel), by decide, rfl⟩⟩
  · intro i h
    refine ⟨starts_of ?_, ?_⟩ <;> (revert i; decide +kernel)
  · intro f h
    refine ⟨at_work ?_, ?_⟩ <;> (revert f; decide +kernel)

/-! ### Ownership, Haul engines and Route Cards -/

/-- A record of work 77, level 1, node 0, as Table 7-5 lays it out. -/
def ownPkt (op epoch : Nat) : Kmt :=
  { workPkt op 9 0 0 0 (le 8 77 ++ le 4 epoch ++ [1, 0, 0, 0] ++ le 4 0 ++ le 4 9 ++ [3, 0] ++ le 2 5 ++ le 4 9) with dst := 1 }
def anchoring (s : State) : State := { s with eng := { s.eng with anchored := [(1, 77)] } }
def recOf (epoch : Nat) : OwnRec := { comp := 1, coll := 77, epoch, level := 1, commit := 0, abort := false, idx := 0, ep := 9, unit := 3, gen := 5, prev := 9, node := 0 }

theorem witness_OwnershipKept :
    (∀ x ∈ [(0x5C, 2), (0x5D, 1), (0x5D, 2)], let p := ownPkt x.1 x.2;
     let s := anchoring up;
      engTakes s 24 = true ∧ p.rsp = false ∧ p.dst = selfEp s ∧ (ownRow (takeRx 24 2 p s) 24 2 p).status = 0 ∧
      ownOf p.comp (nodeOfEp s p.src) (engData p) = recOf x.2 ∧ ownedDesc s (recOf x.2) false = none ∧ s.sw.capture = none ∧ ownedDesc s (recOf x.2) true = none ∧
      s.eng.anchored.contains ((recOf x.2).comp, (recOf x.2).coll) = true ∧ (recOf x.2).abort = false) ∧
    (let w : Watch := { id := 4, comp := 1, coll := 77, level := 1, idx := 0, epoch := 1, at_ := 990000 };
     let s : State := { up with eng := { watches := [w], recs := [recOf 2] } };
      running s = true ∧ s.eng.watches.find? (·.id == 4) = some w ∧ ∃ r ∈ s.eng.recs, r.comp = w.comp ∧ r.coll = w.coll ∧
        r.level = w.level ∧ r.idx = w.idx ∧ w.epoch < r.epoch) := by decide +kernel

/-- A Haul descriptor (Table 10-5) of composition 1 on engine 2 at generation 5, under job 7: two blocks of 64 bytes at 0x1000 of space 3,
image at 0x2000, 64 FP16 elements to endpoint 6. -/
def haulRaw (gen id ring dl : Nat) : List Byte :=
  [1, 0, 2, 1] ++ le 2 gen ++ le 2 7 ++ le 4 id ++ [2, 0] ++ le 2 ring ++ le 8 dl ++ le 4 2 ++ le 2 64 ++ le 2 3 ++ le 8 0x1000 ++ le 2 3 ++ zeros 6 ++
  le 8 0x2000 ++ le 8 0 ++ le 8 64 ++ le 4 6 ++ le 2 3 ++ le 2 0 ++ le 8 0 ++ le 8 0 ++ zeros 32
/-- Space 3's HBM is a STREAM region; Haul engine 2 expands for composition 1. -/
def haulUp (s : State) : State := { s with
  cmd := { s.cmd with rings := [ring5] }
  dir.regions := [(6, { space := 3, base := 0, size := 0x200000, mode := 2 })]
  eng := { s.eng with units := [(130, roleUp 1)] } }
def hshare : HShare := { engine := 2, lo := 0, hi := 2, next := 2, cur := 0, elem := some 0, asked := true }
def hdesc (dl : Nat) : HDesc := { id := 50, unit := 2, raw := haulRaw 5 9 5 dl, shares := [hshare], deadline := dl, dests := [6] }
def hput (tries : Nat) : HPut := { tag := 21, desc := 50, share := 0, engine := 2, addr := 0, data := [1, 2], elems := 1, need := [6], tries, sentAt := 990000 }
def hauling (dl tries : Nat) : State := { haulUp up with haul := { descs := [hdesc dl], puts := [hput tries] }, xlt.nextId := 60 }
/-- Engine 2 reads block 1. -/
def blockRead (refused : Option Nat) : State :=
  let s := hauling 0 0
  { s with eng := { s.eng with reads := [(12, .block 50 0 1)] }
           reads := [(12, { comp := 1, pieces := [{ hbm := true, addr := 0x1001040, len := 64 }], refused })] }
def bookLoad : HLoad :=
  { id := 7, engine := 2, desc := 50, share := 0, comp := 1, image := 3, index := 0, ent := [4, 2, 0, 0] ++ le 4 2 ++ le 4 0 ++ le 4 128, need := [], got := [(0, zeros 4032)], gens := [] }

theorem witness_HaulDelivers :
    (∀ g ∈ [5, 4], let c := mkCmd 0x40 (haulRaw g 9 5 0);
     let s := haulUp (queued c); Starts s 1 0 0x40 none c ∧ (haulRow s c.params false).status = if g = 5 then 0 else 0x30) ∧
    (∀ r ∈ [none, some 0x12], let s := blockRead r;
      running s = true ∧ mget s.eng.reads 12 = some (.block 50 0 1) ∧ findHaul s 50 = some (hdesc 0) ∧ (hdesc 0).shares[0]? = some hshare ∧
      (readDone s 12).map (·.1) = some (r.getD 0)) ∧
    (let s : State := { hauling 0 0 with haul := { descs := [hdesc 0], loads := [bookLoad] } }; s.haul.loads.find? (·.id == 7) = some bookLoad ∧ bookLoad.need = []) ∧
    (let s := hauling 0 0; takesPackets s 8 = true ∧ selfEp s = 1 ∧ s.haul.puts.find? (·.tag == 21) = some (hput 0) ∧ findHaul s 50 = some (hdesc 0)) ∧
    (bits (reg (hauling 0 15) 0x06800000) 23 20 ≤ (hput 15).tries ∧ 0 < bits (reg (hauling 0 0) 0x06800000) 23 20 ∧ routeOf (hauling 0 0) 6 = .port 8 ∧
      live (hauling 0 0) 8 = true) ∧
    (let s := hauling 900000 0;
      running s = true ∧ findHaul s 50 = some (hdesc 900000) ∧ (haulOn s 2).filter (fun d => d.deadline != 0 && decide (d.deadline < s.clock.tb)) = [hdesc 900000]) := by
  refine ⟨?_, by decide +kernel, by decide +kernel, by decide +kernel, by decide +kernel, by decide +kernel⟩
  intro g h
  refine ⟨starts_of ?_, ?_⟩ <;> (revert g; decide +kernel)

/-- A Route Card (Tables 11-4 to 11-6) of one layer of one step on engine 2: window of one page on Crest 0 at 0x400000 of space 3, release word
at 64, depth 1. -/
def cardRaw : List Byte :=
  [1, 0] ++ le 2 1 ++ le 2 1 ++ [1, 0] ++ le 8 0 ++ le 4 1 ++ zeros 12 ++ le 2 3 ++ le 2 3 ++ le 2 1 ++ le 2 5 ++ le 8 0x400000 ++ le 8 64 ++ zeros 8 ++
  le 2 0 ++ le 2 1 ++ zeros 12 ++ haulRaw 5 0 0 0
def cardOf (comp st : Nat) : Card := { comp, raw := cardRaw, st, split := [[{ tile := 2, lo := 0, hi := 2 }]], resident := true, filled := [(0, 0, 0)] }
/-- Card 4 is loaded, with its window in page 80. -/
def carded (c : Card) (s : State) : State :=
  let s := haulUp s
  { s with cards := [(4, c)], xlt.extents := s.xlt.extents ++ [(9, { space := 3, offset := 0x400000, size := 0x200000, hbm := true, base := 80, card := some 4 })] }
/-- A stored block (Table 10-2) of 64 bytes in clear, number 1. -/
def storedHead : List Byte := le 2 0x48A7 ++ [1, 0] ++ le 2 64 ++ le 2 0 ++ le 4 1 ++ zeros 44
def stored : List Byte := storedHead ++ le 4 (crc32c storedHead) ++ zeros 4
/-- Block 1 of the card's share is read for its window. -/
def filling (refused : Option Nat) : State :=
  let s := carded { cardOf 1 1 with fills := [{ n := 0, step := 0, share := 0, next := 1 }], filled := [], fillNow := some 0 } up
  { s with mem := memWrite [] 0x1001040 stored
           eng := { s.eng with reads := [(12, .fill 4 0 0 0 1)] }
           reads := [(12, { comp := 1, pieces := [{ hbm := true, addr := 0x1001040, len := 64 }], refused })] }

def routeCmd (act : Nat) : CmdRec := mkCmd 0x41 ([BitVec.ofNat 8 act, 4] ++ le 2 3 ++ le 4 0 ++ le 8 0x3000)

theorem witness_CardsRun :
    (let c := routeCmd 1;
     let s := queued c; Starts s 1 0 0x41 (some 1) c ∧ ringBig s c = true ∧ s.dev.devState = .full ∧ compLive s 1 = true ∧ cardAt s (pb c 1) = none ∧ s.dir.regions = []) ∧
    (let c := routeCmd 1;
     let s := carded (cardOf 1 0) (queued c); Starts s 1 0 0x41 (some 1) c ∧ ringBig s c = true ∧ (cardAt s (pb c 1)).isSome) ∧
    (∀ x ∈ [(2, 1, 0), (2, 2, 0), (3, 1, 1), (4, 1, 0)], let c := routeCmd x.1;
     let s := carded (cardOf x.2.1 x.2.2) (queued c);
      Starts s 1 0 0x41 (some x.1) c ∧ ringBig s c = true ∧ cardAt s (pb c 1) = some (cardOf x.2.1 x.2.2) ∧
      genCheck s 1 0xFFFF (rcRelSpace cardRaw) (rcRelAddr cardRaw) 8 2 = 0 ∧ relWord s (cardOf x.2.1 x.2.2) = some 0x1000040 ∧ poisoned s 0x1000040 8 = false) ∧
    (let s := carded (cardOf 1 1) up; running s = true ∧ cardAt s 4 = some (cardOf 1 1) ∧ (cardOf 1 1).passes = 0 ∧ (cardOf 1 1).steps = []) ∧
    (let x : Card := { cardOf 1 1 with steps := [{ n := 0, step := 0, retry := true }], nextN := 1 };
     let s := carded x up; (x.steps.find? (fun t => t.step == 0 && t.retry)).map (·.n) = some 0 ∧ (haulRow s (stepPost x 0 0 4) true).status = 0) ∧
    (∀ r ∈ [none, some 0x12], let s := filling r;
      mget s.eng.reads 12 = some (.fill 4 0 0 0 1) ∧ (cardAt s 4).bind (fun x => x.fills.find? fun f => f.n == 0 && f.step == 0 && f.share == 0 && f.next == 1) =
        some { n := 0, step := 0, share := 0, next := 1 } ∧ readDone s 12 = some (if r = none then (0, stored) else (0x12, []))) ∧
    (let x : Card := cardOf 1 1;
      envRow false 1 64 stored = 0 ∧ sharePlace x 0 0 0 = some 0 ∧ fld (stepRaw cardRaw 0) 28 2 = 64 ∧
      ringSegs cardRaw (engineCrest 2) (0 + (1 - 0) * 64) 64 = [(0x400040, 64)] ∧ (extAt (filling none) 3 0x400040).map (·.1) = some 9) ∧
    (running up = true ∧ (up.comps.map (·.1)).Nodup) := by
  refine ⟨⟨starts_of (by decide +kernel), by decide +kernel⟩, ⟨starts_of (by decide +kernel), by decide +kernel⟩, ?_, by decide +kernel, by decide +kernel,
    by decide +kernel, by decide +kernel, by decide +kernel⟩
  intro x h
  refine ⟨starts_of ?_, ?_⟩ <;> (revert x; decide +kernel)

/-! ### Registers and the management network -/

theorem witness_RegistersWritten : cmdPathUp up = true ∧ (isM 0x03000008 = true ∧ 0x03000008 % 4 = 0) ∧
    (wordOk up (portReg 5 0) (0x203 &&& 0xE37) = true ∧ portCfgRefused up 5 (0x203 &&& 0xE37) = false) ∧
    (wordOk up (portReg 0 0) (0x211 &&& 0xE37) = true ∧ portCfgRefused up 0 (0x211 &&& 0xE37) = true) ∧
    (lportsOf up 0 = [0] ∧ bit 1 (0 % 8) = true ∧ (lport up 0).st ≠ 0 ∧ noTrayOn up 0) ∧ isCounter 0x03000400 = true ∧ dead up = false := by
  unfold noTrayOn; decide +kernel

/-- Session 2, with rights and compositions as given. -/
def sessOf (rights : Nat) (recovery : Bool) : Session := { id := 2, peer := 8, rights, comps := 2, recovery, rx := 4, at_ := 990000 }
/-- Its next message, and the state in which it comes. -/
def hdr5 : MgmtHdr := { sess := 2, seq := 5 }
def inSess (q : Session) (s : State) : State := { s with sec := { s.sec with sessions := [q] } }
/-- An agent of aperture 0, without its Partner. -/
def evictable : State := inSess (sessOf 0xFF false) (aperture {})

theorem witness_SessionsReachRegisters :
    (let q := sessOf 0xFF false;
     let s := inSess q up;
      InSession s hdr5 q ∧ q.recovery = false ∧ q.hutOnly = false ∧ bit q.rights 0 = true ∧ bit q.rights 1 = true ∧ s.dev.devState ≠ .bivouac ∧
      s.dev.resetReq = none ∧ 6 ≤ s.dev.stage ∧ s.dev.stage ≠ 15 ∧ s.dev.warm = false) ∧
    (let q := sessOf 0 false; InSession (inSess q up) hdr5 q ∧ q.recovery = false ∧ q.hutOnly = false ∧ bit q.rights 0 = false ∧ bit q.rights 1 = false) ∧
    (bits (0x5EED0002 : Word).toNat 31 16 = 0x5EED ∧ bit (0x5EED0002 : Word).toNat 1 = true ∧ bits (0x5EED0001 : Word).toNat 31 16 = 0x5EED ∧
      bit (0x5EED0001 : Word).toNat 1 = false ∧ bit (0x5EED0001 : Word).toNat 0 = true) ∧
    (InSession evictable hdr5 (sessOf 0xFF false) ∧ bit (0x80000009 : Word).toNat 31 = true ∧ bits (0x80000009 : Word).toNat 21 16 = 0 ∧
      bits (0x80000009 : Word).toNat 8 0 = 9 ∧ (mget evictable.dir.apts 0).isSome ∧ (agentAt evictable 0 9).st = 1 ∧ evictable.dir.txns = [] ∧
      evictable.dir.multis = [] ∧ mirrorBit evictable (spaceComp evictable (mgetD evictable.dir.apts 0 0)) = false) ∧
    (∀ s ∈ [bivouac, up], let s : State := { inSess (sessOf 0xFF false) s with heldLow := [(.mgmt 2, 0x24, 8)] };
      InSession s hdr5 (sessOf 0xFF false) ∧ s.heldLow.find? (fun l => decide (l.1 = .mgmt hdr5.sess) && l.2.1 == 0x24) = some (.mgmt hdr5.sess, 0x24, 8)) ∧
    (sessAt (inSess (sessOf 0xFF false) up) ({ hdr5 with tagOk := false } : MgmtHdr).sess = some (sessOf 0xFF false)) := by
  unfold InSession; decide +kernel

/-- A key exchange that endpoint 8 has begun. -/
def shaking : State := { up with sec := { shakes := [{ peer := 8, rights := 0xFF, comps := 2, key := [], seed := 0, said := [] }] } }

/-- What the uninterpreted functions answer is no number of the model: whichever it is, one of the clauses on `admits` and one of those on
the signature applies. -/
theorem witness_SessionsOpen : (mgmtUp { up with sec.pufOk := true } = true ∧
      (admits { up with sec.pufOk := true } [] = none ∨ ∃ key rights comps hut, admits { up with sec.pufOk := true } [] = some (key, rights, comps, hut))) ∧
    (mgmtUp shaking = true ∧ (shaking.sec.shakes.find? (·.peer == 8)).isSome ∧ firstFree (fun n => (sessAt shaking (n + 1)).isSome) 0 8 = some 0) ∧
    (∀ q ∈ [sessOf 4 false, sessOf 0 false], InSession (inSess q up) hdr5 q ∧ mayDo 2 q = bit q.rights 2) ∧ mayDo 2 (sessOf 4 false) = true ∧
    mayDo 2 (sessOf 0 false) = false := by
  refine ⟨⟨by decide +kernel, ?_⟩, by decide +kernel, by unfold InSession; decide +kernel, by decide, by decide⟩
  rcases h : admits { up with sec.pufOk := true } [] with - | ⟨a, b, c, d⟩
  · exact .inl rfl
  · exact .inr ⟨_, _, _, _, rfl⟩

theorem slotChain_long (s : State) (h : (ownChain s) = [zeros 4]) : 0 < (slotChain s).length := by
  rw [slotChain, h]; decide

/-- Composition 1 holds generation 3 of its weight key; its KGEN_HIGH is 3. -/
def keyed (q : Session) : State := { up with sec := { sessions := [q], keys := [(1, 3, zeros 32)], kgenHigh := [(1, 3)] } }
/-- A device with an owner. -/
def ownedUp : State := { inSess (sessOf 0xFF false) up with sec.owned := true, dev := { devUp with flash := { owner := some [7] } } }

/-- What unwraps, and what verifies, is not a number of the model; the other hypotheses are met. -/
theorem witness_KeysAndOwnership :
    (let q := sessOf 0xFF false;
     let s := keyed q;
      InSession s hdr5 q ∧ mayKey 1 q = true ∧ compLive s 1 = true ∧ mgetD s.sec.kgenHigh 1 0 < 4 ∧ (kgens s 1).length < 4 ∧
      3 ≤ mgetD s.sec.kgenHigh 1 0 ∧ (kgens s 1).contains 3 = true ∧ s.haul.descs = [] ∧ mayDo 4 q = true ∧ isLport s 40 = true ∧ mayDo 6 q = true ∧
      bit q.rights 6 = true ∧ mayDo 5 q = true ∧ s.sec.owned = false ∧ imageErr { magic := 0 } ≠ none ∧ flashMinSvn s = 0) ∧
    (let q := sessOf 0 true; InSession (inSess q up) hdr5 q ∧ q.recovery = true) ∧
    (InSession ownedUp hdr5 (sessOf 0xFF false) ∧ mayDo 5 (sessOf 0xFF false) = true ∧ mayDo 6 (sessOf 0xFF false) = true ∧
      ownedUp.sec.owned = true ∧ ownedUp.dev.flash.owner = some [7]) := by
  unfold InSession; decide +kernel

/-! ### The Partner -/

/-- A trunk to node 77, the Partner, on port 3; mirroring of composition 1 is on, with the space 12 that backs the Partner's space 3 in
page 20. -/
def partnered : State := { up with
  regs := up.regs ++ [cw 0x0A000000 0x28140001, cw 0x0A000008 77, cw 0x0A000010 2]
  xlt.spaces := up.xlt.spaces ++ [(12, { comp := 1, shadow := true })]
  xlt.extents := up.xlt.extents ++ [(2, { space := 12, offset := 0, size := 0x200000, hbm := true, base := 20 })]
  flt := { paired := true, heardAt := some 990000, partnerEp := 9 } }
/-- The Partner's log packet on lane 1: one record from LSN `first`, with a write of three bytes at 64 of space 12. -/
def writeRec : List Byte := le 2 12 ++ le 2 3 ++ zeros 4 ++ le 8 64 ++ zeros 8 ++ [7, 8, 9]
def logPkt (first : Nat) : Kmt :=
  let b := [1, 0] ++ le 2 1 ++ zeros 4 ++ le 8 first ++ [2, 1] ++ le 2 writeRec.length ++ zeros 4 ++ writeRec
  { opcode := 0x80, len := b.length, src := 9, dst := 1, payload := b }
/-- A log packet of this Talik on lane 1, not yet answered, and its answer. -/
def logSent : State :=
  { partnered with flt := { partnered.flt with sent := [{ id := 40, lane := 1, first := 1, recs := [⟨2, 1, writeRec⟩], sentAt := 990000, lp := 24 }]
                                               lanes := [{}, { nextLsn := 2 }, {}, {}] } }
def logAnswer : Kmt := { opcode := 0x80, rsp := true, len := 8, src := 9, dst := 1, tag := 40, payload := le 8 1 }
/-- A Leader, and a Second whose promotion runs. -/
def leader (leading : Nat) : State := { partnered with xlt := {}, flt := { second := { leading } } }
def promoting : State :=
  { partnered with dev := { devUp with devState := .seconding }, flt := { second := { phase := 3, promoteAt := 900000 } }
                   cmd := { up.cmd with longs := [{ cmd := mkCmd 0x64 [], what := .promote }] } }

theorem witness_MirrorLog : (running partnered = true ∧ running logSent = true ∧ running promoting = true) ∧
    (∀ n ∈ [0, 1], let p := logPkt n; let s := partnered;
      takesPackets s 24 = true ∧ p.opcode = 0x80 ∧ p.rsp = false ∧ s.flt.paired = true ∧ seconding s = false ∧ (partnerPorts s).contains 24 = true ∧
      24 ≤ p.len ∧ p.len ≤ 4096 ∧ p.dst = selfEp s ∧ recsOf (fld p.payload 2 2) (p.payload.drop 16) = [⟨2, 1, writeRec⟩] ∧
      byteAt p.payload 0 % 4 = 1 ∧ fld p.payload 8 8 = (lane s 1).applied + n) ∧
    (partnered.flt.lanes.length = 4 ∧ fld writeRec 8 8 = 64 ∧ slice writeRec 24 (fld writeRec 2 2) = [7, 8, 9] ∧
      (extAt partnered (fld writeRec 0 2) 64).map (fun e => (e.1, e.2.hbm)) = some (2, true) ∧ isShadow partnered 1 (fld writeRec 0 2) = true) ∧
    (takesPackets logSent 24 = true ∧ (partnerPorts logSent).contains 24 = true ∧ logAnswer.dst = selfEp logSent ∧
      (logSent.flt.sent.find? (fun m => m.id % 2 ^ 24 == logAnswer.tag)).map (·.lane) = some 1 ∧ logSent.flt.lanes.length = 4) ∧
    ((logSent.flt.sent.find? (·.id == 40)).isSome ∧ logPorts logSent 1 = [24]) ∧
    (∀ n ∈ [1, 2], (leader n).flt.second.leading = n ∧ (leader n).flt.second.asked = false ∧ (leader n).flt.lanes.length = 4 ∧ snapLeft (leader n) = []) ∧
    promoting.cmd.longs.any (·.what == .promote) = true := by decide +kernel

/-- A heartbeat of node 77 or another (Table 15-7). -/
def heartbeat (node st flags : Nat) (lost : Nat) : Kmt :=
  { opcode := 0x81, len := 32, src := 9, dst := 0x3FFFF, payload := le 8 node ++ le 4 9 ++ le 1 st ++ le 1 flags ++ zeros 10 ++ le 8 lost }

theorem witness_PartnersLost :
    (running partnered = true ∧ trunkPorts partnered = [24]) ∧
    (let p := heartbeat 77 1 0 0; ∀ paired ∈ [true, false], let s : State := { partnered with flt.paired := paired };
      takesPackets s 24 = true ∧ modeOf s 24 = 3 ∧ partnerNode s = fld p.payload 0 8 ∧ fld p.payload 0 8 ≠ 0 ∧ bit (byteAt p.payload 13) 2 = false ∧
      s.dev.devState = .full ∧ byteAt p.payload 12 ≠ 2 ∧ s.flt.fenced = false ∧ s.flt.second.leading = 0 ∧ bit (reg s 0x0A000000) 0 = true ∧
      1 ≠ half s ∧ s.flt.peerLost = false ∧ s.flt.held = []) ∧
    (let p := heartbeat 50 1 4 123; let s : State := { partnered with sec.nodeId := 123 };
      partnerNode s ≠ fld p.payload 0 8 ∧ bit (byteAt p.payload 13) 2 = true ∧ fld p.payload 24 8 = s.sec.nodeId ∧ p.len = 32 ∧ p.payload.length = 32) ∧
    (partnered.flt.heardAt = some 990000 ∧ partnered.flt.paired = true ∧ partnered.flt.fenced = false ∧ partnered.flt.fenceKept = false ∧
      partnered.flt.held = [] ∧ partnered.flt.intents = [] ∧ seconding partnered = false ∧ connected partnered = true) ∧
    (let s : State := { partnered with lports := [(24, { lpUp with peerNode := 77 })] };
      running s = true ∧ s.flt.heardAt = some 990000 ∧ connected s = false ∧ seconding s = false ∧ s.flt.fenceKept = false ∧ s.flt.paired = true) ∧
    (let s : State := { promoting with flt := { heardAt := some 990000, second := { phase := 2 } } };
      running s = true ∧ seconding s = true ∧ s.flt.fenceKept = false ∧ s.flt.second.lost = false) ∧
    (let s : State := { partnered with flt := { takeover := true } }; running s = true ∧ s.flt.takeover = true ∧ s.flt.intents = []) := 
  ⟨by decide +kernel, by decide +kernel, by decide +kernel, by decide +kernel, by decide +kernel, by decide +kernel, by decide +kernel⟩

/-! ### The block as a whole -/

theorem witness_FrontCommandRuns : (let s : State := { up with pending := [.nop 1 0, .idcode] }; s.pending = .nop 1 0 :: [.idcode]) ∧ up.pending = [] := by
  decide
theorem witness_StepKeepsForms : (let s : State := { haulUp up with mem := memWrite [] 8 [1, 2], xlt.reqs := [flying somePut], xlt.nextId := 50 };
    s.MemOk ∧ s.IdsOk ∧ ∃ t, step s = .next t) := by
  refine ⟨?_, ?_, _, rfl⟩
  · unfold State.MemOk; decide +kernel
  · unfold State.IdsOk; decide +kernel
/-- A packet of the control unit waits for port 1. -/
def waitingFrame : State := sendFrom inCtl 8 3 somePut none up
theorem witness_MatchIsAMatching : (matchCycle waitingFrame).pairs.map (·.inp) = [inCtl] := by decide +kernel
theorem witness_MatchingCycles : running waitingFrame = true ∧ 1 ≤ bits (reg waitingFrame 0x02000000) 7 0 ∧
    (let s : State := { up with sw.resyncs := List.replicate 255 1000000 }; running s = true ∧ bits (reg s 0x02000000) 7 0 < 255) := by decide +kernel
theorem witness_LocksKept :
    (let s : State := { up with dev := { devUp with jtagRoSet := true, thermLockSet := true } };
      (∃ t, exec .coreRstNAssert s = .next t) ∧ s.dev.jtagRoSet = true ∧ s.dev.thermLockSet = true ∧ s.dev.pwrOk = true ∧ s.dev.brown = false) ∧
    (dueReset true).dev.resetReq = some { cold := true, cause := 3, due := 1010000 } := ⟨⟨⟨_, rfl⟩, rfl, rfl, rfl, rfl⟩, rfl⟩
theorem witness_SecurityFixed :
    (let c := mkCmd 0x50 (le 1 2 ++ le 1 1 ++ le 2 0 ++ le 2 16 ++ zeros 10 ++ le 4 4 ++ le 4 4 ++ le 4 4 ++ le 4 4 ++ le 4 2 ++ le 4 0);
     let s := queued c; Starts s 1 0 0x50 none c ∧ pb c 0 ≠ 0 ∧ pb c 0 ≠ 1 ∧ (comp s (pb c 0)).st = 0 ∧ pf c 4 2 ≠ 0 ∧
      (∀ i, i < 4 → pf c (4 + 2 * i) 2 ≤ 4096) ∧ pb c 1 < 2 ∧ quotaBad s c = false) ∧
    (∃ t, exec .idcode up = .next t ∧ (comp up 1).st ≠ 0 ∧ (comp t 1).st ≠ 0) :=
  ⟨⟨starts_of (by decide +kernel), by decide +kernel⟩, _, rfl, by decide, by decide +kernel⟩
theorem witness_PortFieldsFixed : cmdPathUp up = true ∧
    (bits (reg up (portReg 0 0)) 2 0 ≠ 0 ∧ wordOk up (portReg 0 0) (0x211 &&& 0xE37) = true ∧
      bits (reg up (portReg 0 0)) 5 4 ≠ bits (0x211 &&& 0xE37) 5 4) ∧
    (wordOk up (portReg 0 0x10) 0xABCD4242 = true ∧ bits 0xABCD4242 31 16 ≠ bits (reg up (portReg 0 0x10)) 31 16) ∧
    (bits (reg up (portReg 7 0)) 2 0 = 0 ∧ bits (0x200 &&& 0xE37) 2 0 = 0 ∧ bits (reg up (portReg 7 0)) 5 4 = bits (0x200 &&& 0xE37) 5 4 ∧
      wordOk up (portReg 7 0) (0x200 &&& 0xE37) = true) := by decide +kernel

/-- ROPE_FORM of tiles 3 and 5, ROPE_DISSOLVE of their Rope, which has or has not a role. -/
def ropeForm35 : CmdRec := { mkCmd 0x20 ([1, 0, 2] ++ zeros 5 ++ [3, 5] ++ zeros 6) with comp := 0 }
def ropeEnd : CmdRec := { mkCmd 0x20 ([2, 0, 0, 64] ++ zeros 4) with comp := 0 }
def atZero (c : CmdRec) (units : SMap EUnit) : State :=
  { up with cmd := { queues := [(0, { depth := 64, waiting := [c] })] }, eng := { units } }
def rope64 (role : Nat) : SMap EUnit := [(3, { parent := some 64 }), (5, { parent := some 64 }), (64, { formed := true, members := [3, 5], role })]

theorem witness_RopesFormed :
    (let c := ropeForm35;
     let s := atZero c [];
     let ks := (List.range (pb c 2)).map (fun i => 128 * pb c 1 + pb c (8 + i));
      pb c 1 = 0 ∧ Starts s 0 0 0x20 (some 1) c ∧ ks = [3, 5] ∧ ks.Nodup ∧ (∀ m ∈ ks, m < 128 ∧ unitThere s m = true ∧ (eunit s m).role = 0 ∧
        (eunit s m).parent = none ∧ anyFailed s m = false ∧ (eunit s m).st = 0 ∧ (eunit s m).rstBusy = false) ∧ (eunit s 64).formed = false) ∧
    (∀ role ∈ [0, 1], let c := ropeEnd;
     let s := atZero c (rope64 role);
      pb c 1 = 0 ∧ Starts s 0 0 0x20 (some 2) c ∧ 128 * pb c 1 + pb c 3 = 64 ∧ (eunit s 64).formed = true ∧ (eunit s 64).role = role ∧
      (eunit s 64).parent = none ∧ (eunit s 64).st = 0 ∧ (eunit s 64).rstBusy = false ∧ (eunit s 64).members.Nodup ∧ 64 ∉ (eunit s 64).members) := by
  refine ⟨⟨by decide, starts_of (by decide +kernel), by decide +kernel⟩, ?_⟩
  intro role h
  refine ⟨by decide, starts_of ?_, ?_⟩ <;> (revert role; decide +kernel)

/-- Ring 5 has entries 0 to 2; endpoint 5 writes its CI. -/
def ringUp : State := { up with
  cmd := { up.cmd with rings := [{ ring5 with pi := 3, entries := [(0, { type := 2, status := 0, payload := zeros 48 }),
    (1, { type := 2, status := 0, payload := zeros 48 }), (2, { type := 2, status := 0, payload := zeros 48 })] }] } }
def ciWrite (v : Nat) : Kmt := memPkt 0x02 0x400008 8 (le 8 v)
theorem witness_RingsConsumed : (∀ v ∈ [0, 2, 3, 4], let p := ciWrite v; let s := ringUp;
      p.opcode = 0x02 ∧ Accepts s 0 1 p ∧ (ringAt s p.space p.addr).map (·.pi) = some 3 ∧
      findRing s 1 5 = ringAt s p.space p.addr ∧ alone s 0 1 0x02 ∧ leVal (p.payload.take 8) = v) := by
  unfold Accepts State.IdsOk alone; decide +kernel

/-! ### Worked examples of the spec -/

/-- The link header of R50's example, without its HCRC. -/
theorem test_link_header : (linkHeader 1 3 1088 0 true 0x1A2B 0xF00).take 12 = [0x01, 0x1B, 0x40, 0x04, 0x2B, 0x1A, 0, 0, 0, 0x0F, 0, 0] := by
  decide +kernel
/-- The egress record of the same frame (chapter 3's example after R107): bytes 128 to 151. -/
theorem test_capture_record : slice (captureRec { up with clock := { tb := 0x13A0F1E9C28 }, sw := { capSeq := 0x10007 } } 1 (zeros 256) 0x3FF 560 3 5 false true 0 1334)
    128 24 = [0x28, 0x9C, 0x1E, 0x0F, 0x3A, 1, 0, 0, 0xFF, 3, 0x30, 2, 0x4B, 0, 0x36, 5, 5, 0, 0, 0, 7, 0, 1, 0] := by decide +kernel
/-- The FADD request of the combining example (R135). -/
def faddOfA : Kmt :=
  { opcode := 0x10, comp := 5, len := 8, job := 0x0102, src := 0xA05, dst := 0x3FFFF, tag := 0x41, space := 3, addr := 0x4000000100, payload := le 8 3750 }
theorem test_fadd_packet : kmtBytes faddOfA = [0x10, 0, 0, 5, 8, 0, 2, 1, 5, 0x0A, 0, 0, 0xFF, 0xFF, 3, 0, 0x41, 0, 0, 0, 3, 0, 0, 0,
    0, 1, 0, 0, 0x40, 0, 0, 0, 0xA6, 0x0E, 0, 0, 0, 0, 0, 0] := by decide +kernel
/-- Its sum at the tray's counter: 45,000 and 15,000. -/
theorem test_fadd_sum : atomFold 0x10 8 45000 (le 8 15000) = 60000 := by decide +kernel
/-- Chapter 1's example: sender port 5, result port 70, Haul engine 19. -/
theorem test_crests : crestOf (8 * 5) = 0 ∧ crestOf (8 * 70) = 2 ∧ engineCrest 19 = 2 := by decide
/-- Port 70 broken out 4×400G (R41's example). -/
theorem test_breakout : lportsOf { up with regs := [cw (portReg 70 0) 0x221] } 70 = [560, 562, 564, 566] := by decide +kernel
/-- Chapter 17's example: REG_READ of ENG_DL_MISS of tile 34 after one miss answers 1 and clears the counter, and a second answers 0. -/
theorem test_reg_read_deadline :
    (readWords .cmd true 2 0x05220118 { up with ctrs := [(0x05220118, 1)] }).1 = [1, 0] ∧
    ctr (readWords .cmd true 2 0x05220118 { up with ctrs := [(0x05220118, 1)] }).2 0x05220118 = 0 := by decide +kernel
/-- The CRC-32C of the digits 1 to 9, as the polynomial's catalogue gives it. -/
theorem test_crc32c : crc32c [0x31, 0x32, 0x33, 0x34, 0x35, 0x36, 0x37, 0x38, 0x39] = 0xE3069283 := by decide +kernel

/-- Chapter 12's revoke: its frame, from the destination of the header on. -/
def revokeFrame : CmdFrame :=
  { bytes := [8, 0x10, 0x30, 0, 0, 0, 0, 0, 0, 0, 0, 0] ++ zeros 4 ++ [0x11, 0, 8, 5, 1, 0, 0x10, 0, 0x23, 1, 0, 0, 2, 0, 0xFF, 0xFF,
      0xAB, 0, 0, 0, 0, 0, 0, 0, 0, 0, 0, 0, 0, 0, 0, 0, 3, 0, 0, 0, 0, 0, 0, 0, 0, 0, 0, 0, 0x40, 0, 0, 0] }
theorem test_revoke_frame : (let c := cmdOf revokeFrame 32 false;
    [c.opcode, c.flags, c.comp, c.queue, c.cseq, c.ring, c.job, c.ctx, pf c 0 2, pf c 8 8] = [0x11, 8, 5, 1, 0x123, 2, 0xFFFF, 0xAB, 3, 0x4000000000] ∧
    c.hdrOk = true) := by decide +kernel

/-! ### Single steps -/

/-- What is left of a command's outcome. -/
def after (o : Host.Outcome State Fault Refusal) : State := match o with
  | .next t => t
  | _ => up

/-- R12: a counter stops at its top. -/
theorem test_counter_saturates : ctr (count 8 { up with ctrs := [(8, 2 ^ 64 - 1)] }) 8 = 2 ^ 64 - 1 := by decide +kernel
/-- R115: FMAXS and FMINS are signed; CAS that fails leaves the word; FADD wraps. -/
theorem test_atomics : atomFold 0x14 8 (2 ^ 64 - 1) (le 8 1) = 1 ∧ atomFold 0x15 8 (2 ^ 64 - 1) (le 8 1) = 2 ^ 64 - 1 ∧
    atomFold 0x17 8 5 (le 8 4 ++ le 8 9) = 5 ∧ atomFold 0x17 8 4 (le 8 4 ++ le 8 9) = 9 ∧ atomFold 0x10 4 0xFFFFFFFF (le 4 2) = 1 := by decide +kernel
/-- R51, R54: SEQ differences are signed and wrap. -/
theorem test_seq_wraps : seqDiff 0 (2 ^ 32 - 1) = 1 ∧ seqDiff (2 ^ 32 - 1) 0 = -1 ∧ seqDiff (2 ^ 31) 0 = -(2 ^ 31 : Int) := by decide +kernel
/-- Table 16-6's IDCODE of a CT-9616: IDCODE shifts its 32 bits out. -/
theorem test_idcode : (after (exec .idcode up)).out = [.tdo 32 0x19616B47] := by decide +kernel
/-- R116: a write to HBM lands at the page's bytes and nowhere beside them. -/
theorem test_write_lands : (memRead (after (exec (.hbmResponse 11 []) (atMemory (.write [1, 2]) (memPkt 0x02 64 2 [1, 2])))).mem 0x100003F 4) = [0, 1, 2, 0] := by
  decide +kernel
/-- Table 12-5: a command of a source without OPER that needs it is DENIED. -/
theorem test_tenant_create_denied : ((queue (after (exec (.tenantCreate 1 0) (queued { mkCmd 0x50 (zeros 40) with oper := false }))) 1 0).saved.map (·.status)) = [0x13] := by
  decide +kernel
/-- R504: a space that does not exist is answered BAD_ADDR. -/
theorem test_space_destroy_absent : ((queue (after (exec (.spaceDestroy 1 0) (queued (mkCmd 0x10 (mapBytes 2 0 900 0 0 0 0 0 0 0))))) 1 0).saved.map (·.status)) = [0x12] := by
  decide +kernel
/-- Table 12-3: a frame whose HCRC fails is dropped, and no command waits. -/
theorem test_bad_frame_dropped : (queue (after (exec (.cmdIntake 32 { nopFrame with bytes := nopFrame.bytes.set 0 9 }) (entitled 1))) 1 0).waiting = [] := by
  decide +kernel
/-- R444: power that falls takes the block back to the hold of a cold reset. -/
theorem test_power_fall : dead (after (exec .pwrOkFall up)) = true ∧ (after (exec .pwrOkFall up)).lports = [] := by decide +kernel

end Sys2Proof.Tests
end

section
/-! SUPPORT. The statements of 00_scope: a counter saturates (R12), and the RWL fields keep their values until a cold reset (R11).

For R11 the idea is one value of a state, `State.sealed`: the RWL fields with their written marks, and the queue. Every operation of
the block but a write of a register, a capsule's writes, and a cold reset leaves it the same (one lemma for each operation,
`<operation>_sealed`, in the order of the model); the operations that do write registers keep the fields that have been written
(`KeepsSeals`). `exec_keepsSeals` puts the two together for the commands. -/

namespace Sys2Proof.Machine

/-! ### Counters (R12) -/

theorem ctr_countN (s : State) (a n b : Nat) :
    ctr (countN a n s) b = if b = a then min (2 ^ 64 - 1) (ctr s a + n) else ctr s b := by
  simp only [ctr, countN, mgetD_msetD]
  rfl

theorem onlyChanges_countN (s : State) (a n : Nat) : OnlyChanges [.ctrs] s (countN a n s) := by
  refine ⟨rfl, fun f hf => ?_⟩
  cases f
  case ctrs => simp at hf
  all_goals rfl

/-- Settles O5: what a counter reads as after counting, and that counting changes the counters only. -/
theorem countersSaturate : Obligations.CountersSaturate := fun s a n =>
  ⟨by rw [ctr_countN, if_pos rfl], fun b hb => by rw [ctr_countN, if_neg hb], onlyChanges_countN s a n⟩

/-! ### What no operation but a register write or a cold reset touches -/

/-- JTAG_RO and LOCK of CLK_THERM_CFG with the marks that they have been written (R11), and the queue of commands. -/
def State.sealed (s : State) : (Bool × Bool × Bool × Bool) × List Instr :=
  ((s.dev.jtagRoSet, s.dev.jtagRo, s.dev.thermLockSet, s.dev.thermLock), s.pending)

/-- A record update of any parts but the device's and the queue. The proof is no `rfl` to `simp`, or the kernel would check each use
by unfolding both states. -/
@[simp] theorem sealed_with (s : State) (clock regs ctrs latched heldLow lports sw rx toHut mem pages reads poison xlt dir cmd
    comps sec eng haul cards flt out freeCtr) :
    State.sealed { s with
      clock, regs, ctrs, latched, heldLow, lports, sw, rx, toHut, mem, pages, reads, poison, xlt, dir, cmd, comps, sec, eng, haul,
      cards, flt, out, freeCtr } = s.sealed := (rfl)

/-- A record update that also writes fields of the device's part other than the RWL fields. -/
@[simp] theorem sealed_with_dev (s : State) (clock regs ctrs latched heldLow lports sw rx toHut mem pages reads poison xlt dir cmd
    comps sec eng haul cards flt out freeCtr)
    (part pwrOk porstLow coreRstLow brown pwrAt inReset bootStart stage stageMs bootErr resetCause resetReq warm warmHeld devState
      devChanges campAt coresDown refs plls mgmtLinked mgmtTry10g mgmtTryAt frzInReset roBusy roStat roAddr frzData tapIr boundary
      jtagRead smbAddr smbPtr dieNow diePeak dieHot hbmNow hbmPeak hbmHot thermTrip thermWarn hbmWarn drainAt pwrNow pwrPeak flash) :
    State.sealed { s with
      dev := { s.dev with
        part, pwrOk, porstLow, coreRstLow, brown, pwrAt, inReset, bootStart, stage, stageMs, bootErr, resetCause, resetReq, warm,
        warmHeld, devState, devChanges, campAt, coresDown, refs, plls, mgmtLinked, mgmtTry10g, mgmtTryAt, frzInReset, roBusy, roStat,
        roAddr, frzData, tapIr, boundary, jtagRead, smbAddr, smbPtr, dieNow, diePeak, dieHot, hbmNow, hbmPeak, hbmHot, thermTrip,
        thermWarn, hbmWarn, drainAt, pwrNow, pwrPeak, flash }
      clock, regs, ctrs, latched, heldLow, lports, sw, rx, toHut, mem, pages, reads, poison, xlt, dir, cmd, comps, sec, eng, haul,
      cards, flt, out, freeCtr } = s.sealed := (rfl)

@[simp] theorem sealed_ite (c : Prop) [Decidable c] (s t : State) :
    (if c then s else t).sealed = if c then s.sealed else t.sealed := apply_ite _ _ _ _

@[simp] theorem sealed_snd_ite {α : Type} (c : Prop) [Decidable c] (p q : α × State) :
    (if c then p else q).2.sealed = if c then p.2.sealed else q.2.sealed := by split <;> rfl

@[simp] theorem sealed_fst_ite {α : Type} (c : Prop) [Decidable c] (p q : State × α) :
    (if c then p else q).1.sealed = if c then p.1.sealed else q.1.sealed := by split <;> rfl

@[simp] theorem each_sealed {α : Type} (l : List α) {f : α → State → State} (h : ∀ a t, (f a t).sealed = t.sealed) (s : State) :
    (each l f s).sealed = s.sealed := by
  induction l generalizing s with
  | nil => rfl
  | cons a l ih => exact (ih (f a s)).trans (h a s)

@[simp] theorem foldl_sealed {α : Type} (l : List α) {f : State → α → State} (h : ∀ t a, (f t a).sealed = t.sealed) (s : State) :
    (l.foldl f s).sealed = s.sealed := each_sealed l (fun a t => h t a) s

@[simp] theorem foldl_snd_sealed {α β : Type} (l : List α) {f : β × State → α → β × State}
    (h : ∀ p a, (f p a).2.sealed = p.2.sealed) (p : β × State) : (l.foldl f p).2.sealed = p.2.sealed := by
  induction l generalizing p with
  | nil => rfl
  | cons a l ih => exact (ih (f p a)).trans (h p a)

/-! ### Shared operations -/

@[simp] theorem elapse_sealed (d : Nat) (s : State) : (elapse d s).sealed = s.sealed := by simp [elapse]
@[simp] theorem atLeast_sealed (t : Nat) (s : State) : (atLeast t s).sealed = s.sealed := by simp [atLeast]
@[simp] theorem useFree_sealed (s : State) : (useFree s).sealed = s.sealed := by simp [useFree]
@[simp] theorem setReg_sealed (a v : Nat) (s : State) : (setReg a v s).sealed = s.sealed := by simp [setReg]
@[simp] theorem countN_sealed (a n : Nat) (s : State) : (countN a n s).sealed = s.sealed := by simp [countN]
@[simp] theorem count_sealed (a : Nat) (s : State) : (count a s).sealed = s.sealed := by simp [count]
@[simp] theorem attn_sealed (b : Nat) (s : State) : (attn b s).sealed = s.sealed := by simp [attn]
@[simp] theorem setDevState_sealed (d : DevState) (s : State) : (setDevState d s).sealed = s.sealed := by simp [setDevState]
@[simp] theorem poisonAt_sealed (a : Nat) (s : State) : (poisonAt a s).sealed = s.sealed := by simp [poisonAt]
@[simp] theorem unpoison_sealed (a n : Nat) (s : State) : (unpoison a n s).sealed = s.sealed := by simp [unpoison]
@[simp] theorem hbmWrite_sealed (a : Nat) (bs : List Byte) (s : State) : (hbmWrite a bs s).sealed = s.sealed := by simp [hbmWrite]
@[simp] theorem setLport_sealed (lp : Nat) (f : LPort → LPort) (s : State) : (setLport lp f s).sealed = s.sealed := by simp [setLport]
@[simp] theorem enqueue_sealed (f : VFrame) (s : State) : (enqueue f s).sealed = s.sealed := by simp [enqueue]

@[simp] theorem sendFrom_sealed (inp lp tc : Nat) (p : Kmt) (gate : Gate) (s : State) :
    (sendFrom inp lp tc p gate s).sealed = s.sealed := by simp [sendFrom]

@[simp] theorem setRing_sealed (r : Ring) (s : State) : (setRing r s).sealed = s.sealed := by simp [setRing]
@[simp] theorem ringWrite_sealed (r : Ring) (e : Entry) (s : State) : (ringWrite r e s).sealed = s.sealed := by simp [ringWrite]

@[simp] theorem event_sealed (k cause object counter : Nat) (s : State) :
    (event k cause object counter s).sealed = s.sealed := by unfold event; split <;> simp

@[simp] theorem fault_sealed (cls cause : Nat) (k : Option Nat) (object counter detail b : Nat) (s : State) :
    (fault cls cause k object counter detail b s).sealed = s.sealed := by
  unfold fault
  (repeat' split) <;> simp

@[simp] theorem dlMiss_sealed (key ctr k : Nat) (s : State) : (dlMiss key ctr k s).sealed = s.sealed := by simp [dlMiss]
@[simp] theorem dropDesc_sealed (id status : Nat) (s : State) : (dropDesc id status s).sealed = s.sealed := by simp [dropDesc]
@[simp] theorem ringFill_sealed (r : Ring) (e : Entry) (s : State) : (ringFill r e s).sealed = s.sealed := by simp [ringFill]

@[simp] theorem ringPut_sealed (k n : Nat) (e : Entry) (s : State) :
    (ringPut k n e s).sealed = s.sealed := by unfold ringPut; split <;> simp

@[simp] theorem setLane_sealed (c : Nat) (f : Lane → Lane) (s : State) : (setLane c f s).sealed = s.sealed := by simp [setLane]
@[simp] theorem sendMlog_sealed (m : MlogPkt) (rtx : Bool) (s : State) : (sendMlog m rtx s).sealed = s.sealed := by simp [sendMlog]
@[simp] theorem pushRec_sealed (c : Nat) (r : LogRec) (s : State) : (pushRec c r s).1.sealed = s.sealed := by simp [pushRec]
@[simp] theorem logRec_sealed (c : Nat) (r : LogRec) (s : State) : (logRec c r s).1.sealed = s.sealed := by simp [logRec]
@[simp] theorem hold_sealed (g : Nat × Nat) (h : Held) (s : State) : (hold g h s).sealed = s.sealed := by simp [hold]

@[simp] theorem digestOut_sealed (c seq k : Nat) (bytes : List Byte) (s : State) :
    (digestOut c seq k bytes s).sealed = s.sealed := by simp [digestOut]

@[simp] theorem digestPkt_sealed (inp : Nat) (p : Kmt) (s : State) : (digestPkt inp p s).sealed = s.sealed := by simp [digestPkt]

@[simp] theorem ringPutG_sealed (g : Gate) (k n : Nat) (e : Entry) (s : State) :
    (ringPutG g k n e s).sealed = s.sealed := by unfold ringPutG; split <;> simp

@[simp] theorem emit_sealed (o : Out) (s : State) : (emit o s).sealed = s.sealed := by simp [emit]

/-! ### Replies and completions of commands -/

@[simp] theorem setQueue_sealed (k q : Nat) (f : Queue → Queue) (s : State) : (setQueue k q f s).sealed = s.sealed := by simp [setQueue]
@[simp] theorem press_sealed (s : State) : (press s).sealed = s.sealed := by simp [press]

@[simp] theorem sendReplyBytes_sealed (c : CmdRec) (bytes : List Byte) (s : State) :
    (sendReplyBytes c bytes s).sealed = s.sealed := by simp [sendReplyBytes]

@[simp] theorem sendReply_sealed (c : CmdRec) (status load : Nat) (params : List Byte) (s : State) :
    (sendReply c status load params s).sealed = s.sealed := by simp [sendReply]

@[simp] theorem saveReply_sealed (c : CmdRec) (status load : Nat) (params : List Byte) (s : State) :
    (saveReply c status load params s).sealed = s.sealed := by simp [saveReply]

@[simp] theorem finishLong_sealed (l : LongCmd) (status : Nat) (result : List Byte) (s : State) :
    (finishLong l status result s).sealed = s.sealed := by simp [finishLong]

@[simp] theorem finishAll_sealed (what : LongFor) (status : Nat) (result : List Byte) (s : State) :
    (finishAll what status result s).sealed = s.sealed := by simp [finishAll]

/-! ### The memory transport -/

@[simp] theorem setComp_sealed (k : Nat) (f : Comp → Comp) (s : State) : (setComp k f s).sealed = s.sealed := by simp [setComp]
@[simp] theorem charge_sealed (k : Nat) (per : List Nat) (s : State) : (charge k per s).sealed = s.sealed := by simp [charge]
@[simp] theorem uncharge_sealed (k : Nat) (per : List Nat) (s : State) : (uncharge k per s).sealed = s.sealed := by simp [uncharge]

theorem allocRun_sealed {k n : Nat} {share : Share} {crest : Option Nat} {s : State} {r : Nat × State} (h : allocRun k n share crest s = some r) :
    r.2.sealed = s.sealed := by
  unfold allocRun at h
  split at h
  · cases h
  · simp only [Option.ite_none_right_eq_some, Option.some.injEq] at h
    obtain ⟨-, rfl⟩ := h
    simp

@[simp] theorem freeRun_sealed (k a n : Nat) (s : State) : (freeRun k a n s).sealed = s.sealed := by simp [freeRun]
@[simp] theorem quotaRej_sealed (s : State) : (quotaRej s).sealed = s.sealed := by simp [quotaRej]
@[simp] theorem addHbmBytes_sealed (k n : Nat) (s : State) : (addHbmBytes k n s).sealed = s.sealed := by simp [addHbmBytes]
@[simp] theorem hbmMoved_sealed (k a n : Nat) (s : State) : (hbmMoved k a n s).sealed = s.sealed := by simp [hbmMoved]
@[simp] theorem addTrayBytes_sealed (k n : Nat) (s : State) : (addTrayBytes k n s).sealed = s.sealed := by simp [addTrayBytes]
@[simp] theorem newId_sealed (s : State) : (newId s).2.sealed = s.sealed := by simp [newId]
@[simp] theorem sendTray_sealed (r : TrayReq) (rtx : Bool) (s : State) : (sendTray r rtx s).sealed = s.sealed := by simp [sendTray]

theorem issueTray_sealed {t a : Nat} {p : Kmt} {tc crest : Nat} {ext : Option Nat} {why : Why} {gate : Gate} {s : State} {r : Nat × State}
    (h : issueTray t a p tc crest ext why gate s = some r) :
    r.2.sealed = s.sealed := by
  unfold issueTray at h
  split at h
  · cases h
  · obtain rfl := Option.some.inj h
    simp only [sealed_ite, sendTray_sealed, addTrayBytes_sealed, useFree_sealed, sealed_with]
    split
    · rfl
    · split <;> simp

@[simp] theorem issueHbm_sealed (addr : Nat) (op : MemOp) (why : Why) (gate : Gate) (s : State) :
    (issueHbm addr op why gate s).2.sealed = s.sealed := by simp [issueHbm]

@[simp] theorem perform_sealed (o : HbmOp) (s : State) : (perform o s).2.2.sealed = s.sealed := by
  unfold perform
  (repeat' split) <;> simp

@[simp] theorem takeTokens_sealed (lp n : Nat) (s : State) : (takeTokens lp n s).sealed = s.sealed := by simp [takeTokens]

@[simp] theorem respondTo_sealed (dst lp tc : Nat) (p : Kmt) (status load : Nat) (payload : List Byte) (cmb : Bool) (gate : Gate) (s : State) :
    (respondTo dst lp tc p status load payload cmb gate s).sealed = s.sealed := by simp [respondTo]

@[simp] theorem respond_sealed (lp tc : Nat) (p : Kmt) (status : Nat) (payload : List Byte) (m : Option Nat) (cmb : Bool) (gate : Gate) (s : State) :
    (respond lp tc p status payload m cmb gate s).sealed = s.sealed := by simp [respond]

@[simp] theorem retryLater_sealed (lp tc : Nat) (p : Kmt) (load : Nat) (s : State) :
    (retryLater lp tc p load s).sealed = s.sealed := by simp [retryLater]

@[simp] theorem cachePut_sealed (c : Cached) (s : State) : (cachePut c s).sealed = s.sealed := by simp [cachePut]

@[simp] theorem endReq_sealed (id status : Nat) (payload : List Byte) (m : Option Nat) (cmb term : Bool) (gate : Gate) (s : State) :
    (endReq id status payload m cmb term gate s).sealed = s.sealed := by
  unfold endReq
  (repeat' split) <;> simp

@[simp] theorem tierFault_sealed (cause k space : Nat) (s : State) : (tierFault cause k space s).sealed = s.sealed := by simp [tierFault]
@[simp] theorem endFlushes_sealed (s : State) : (endFlushes s).sealed = s.sealed := by simp [endFlushes]

@[simp] theorem replyDigests_sealed (c lsn : Nat) (r : LogRec) (tri : List Byte) (status old : Nat) (s : State) :
    (replyDigests c lsn r tri status old s).sealed = s.sealed := by unfold replyDigests; split <;> simp

@[simp] theorem logUpdate_sealed (c : Nat) (r : LogRec) (tri : List Byte) (status old : Nat) (s : State) :
    (logUpdate c r tri status old s).1.sealed = s.sealed := by simp [logUpdate]

@[simp] theorem logTray_sealed (t a crest : Nat) (p : Kmt) (rs : List Req) (s : State) :
    (logTray t a crest p rs s).1.sealed = s.sealed := by simp [logTray]

theorem memDirect_sealed {e : Extent} {x : Nat} {p : Kmt} {tc crest : Nat} {rs : List Req} {why : Why} {s : State} {t : State}
    (h : memDirect e x p tc crest rs why s = some t) :
    t.sealed = s.sealed := by
  simp only [memDirect] at h
  split at h
  · obtain rfl := Option.some.inj h
    simp
  split at h
  · obtain ⟨r, hr, rfl⟩ := Option.map_eq_some_iff.mp h
    exact issueTray_sealed hr
  · obtain ⟨r, hr, rfl⟩ := Option.map_eq_some_iff.mp h
    simpa using issueTray_sealed hr

@[simp] theorem endWindow_sealed (w : Window) (status : Nat) (data : List (List Byte)) (m : Option Nat) (gate : Gate) (s : State) :
    (endWindow w status data m gate s).sealed = s.sealed := by simp [endWindow]

@[simp] theorem winDone_sealed (id status : Nat) (data : List Byte) (m : Option Nat) (gate : Gate) (s : State) :
    (winDone id status data m gate s).sealed = s.sealed := by unfold winDone; split <;> simp

@[simp] theorem fillPiece_sealed (id tag status : Nat) (data : List Byte) (s : State) :
    (fillPiece id tag status data s).sealed = s.sealed := by simp [fillPiece]

/-! ### The header capture ring -/

@[simp] theorem captureAtPoint_sealed (point : Nat) (f : List Byte) (inLp outLp tc k : Nat) (poison mcast : Bool) (drop flen : Nat) (s : State) :
    (captureAtPoint point f inLp outLp tc k poison mcast drop flen s).sealed = s.sealed := by unfold captureAtPoint; split <;> simp

/-! ### The directory -/

@[simp] theorem setAgent_sealed (apt n : Nat) (a : Agent) (s : State) : (setAgent apt n a s).1.sealed = s.sealed := by simp [setAgent]

@[simp] theorem putEnt_sealed (space line : Nat) (e : DirEnt) (always : Bool) (s : State) :
    (putEnt space line e always s).1.sealed = s.sealed := by simp [putEnt]

@[simp] theorem touch_sealed (space line : Nat) (s : State) : (touch space line s).sealed = s.sealed := by simp [touch]
@[simp] theorem setTxn_sealed (space line : Nat) (f : Txn → Txn) (s : State) : (setTxn space line f s).sealed = s.sealed := by simp [setTxn]

@[simp] theorem giveTo_sealed (whom : Why) (tag status : Nat) (data : List Byte) (m : Option Nat) (gate : Gate) (s : State) :
    (giveTo whom tag status data m gate s).sealed = s.sealed := by unfold giveTo; split <;> simp

@[simp] theorem endTxn_sealed (space line : Nat) (s : State) : (endTxn space line s).sealed = s.sealed := by simp [endTxn]

@[simp] theorem lineReply_sealed (t : Txn) (status : Nat) (data : List Byte) (gate : Gate) (s : State) :
    (lineReply t status data gate s).sealed = s.sealed := by unfold lineReply; split <;> simp

@[simp] theorem closeTx_sealed (t : Txn) (s : State) : (closeTx t s).sealed = s.sealed := by simp [closeTx]

@[simp] theorem grantNow_sealed (t : Txn) (data : Option (List Byte)) (s : State) :
    (grantNow t data s).sealed = s.sealed := by simp [grantNow]

theorem lineMem_sealed {t : Txn} {p : Kmt} {why : Why} {s : State} {u : State} (h : lineMem t p why s = some u) : u.sealed = s.sealed := by
  unfold lineMem at h
  split at h
  · cases h
  · exact memDirect_sealed h

@[simp] theorem atMemory_sealed (t : Txn) (p : Kmt) (s : State) : (atMemory t p s).sealed = s.sealed := by
  unfold atMemory
  dsimp only
  split
  · next h => simpa using lineMem_sealed h
  · simp

@[simp] theorem writeBack_sealed (t : Txn) (d : List Byte) (s : State) : (writeBack t d s).sealed = s.sealed := by
  unfold writeBack
  split
  · next h => simpa using lineMem_sealed h
  · simp

@[simp] theorem poisonLine_sealed (t : Txn) (s : State) : (poisonLine t s).sealed = s.sealed := by simp [poisonLine]

@[simp] theorem grantLine_sealed (t : Txn) (g : Nat) (next : DirEnt) (withData : Bool) (s : State) :
    (grantLine t g next withData s).sealed = s.sealed := by
  unfold grantLine
  dsimp only
  split
  · simp
  · split <;> simp

@[simp] theorem uncachedWrite_sealed (t : Txn) (s : State) :
    (uncachedWrite t s).sealed = s.sealed := by simp only [uncachedWrite]; split <;> simp

@[simp] theorem resolveRow_sealed (t : Txn) (e0 : DirEnt) (s : State) : (resolveRow t e0 s).sealed = s.sealed := by
  unfold resolveRow
  dsimp only
  (repeat' split) <;> simp

@[simp] theorem resolveLine_sealed (space line probe : Nat) (s : State) : (resolveLine space line probe s).sealed = s.sealed := by
  unfold resolveLine
  dsimp only
  split
  · simp
  · split <;> simp

@[simp] theorem sendProbe_sealed (space line : Nat) (p : Probe) (rtx : Bool) (gate : Gate) (s : State) :
    (sendProbe space line p rtx gate s).sealed = s.sealed := by simp only [sendProbe]; split <;> simp

@[simp] theorem startProbes_sealed (t : Txn) (apt op : Nat) (agents : List Nat) (s : State) :
    (startProbes t apt op agents s).sealed = s.sealed := by simp [startProbes]

@[simp] theorem goLine_sealed (space line : Nat) (s : State) : (goLine space line s).sealed = s.sealed := by
  unfold goLine
  dsimp only
  split
  · simp
  split
  · simp
  · split <;> simp

@[simp] theorem beginLine_sealed (space line : Nat) (r : LineReq) (q : List LineReq) (s : State) :
    (beginLine space line r q s).sealed = s.sealed := by simp [beginLine]

@[simp] theorem serveLine_sealed (n space line : Nat) (q : List LineReq) (s : State) : (serveLine n space line q s).sealed = s.sealed := by
  induction n generalizing q s space line with
  | zero => rfl
  | succ n ih =>
    cases q with
    | nil => rfl
    | cons r rest =>
      simp only [serveLine]
      split
      · split <;> simp [ih]
      · simp

@[simp] theorem lineRequest_sealed (space line : Nat) (r : LineReq) (s : State) :
    (lineRequest space line r s).sealed = s.sealed := by unfold lineRequest; split <;> simp

@[simp] theorem stepMulti_sealed (m : Multi) (s : State) : (stepMulti m s).sealed = s.sealed := by
  unfold stepMulti
  split
  · split <;> simp
  · simp

@[simp] theorem runMultis_sealed (n : Nat) (s : State) : (runMultis n s).sealed = s.sealed := by
  induction n generalizing s with
  | zero => rfl
  | succ n ih =>
    unfold runMultis
    split <;> simp [ih]

@[simp] theorem settleDir_sealed (s : State) : (settleDir s).sealed = s.sealed := by simp [settleDir]

@[simp] theorem uncached_sealed (whom : Why) (p : Kmt) (lp tc crest : Nat) (s : State) :
    (uncached whom p lp tc crest s).sealed = s.sealed := by simp [uncached]

@[simp] theorem lineMemDone_sealed (space line status : Nat) (data : List Byte) (s : State) :
    (lineMemDone space line status data s).sealed = s.sealed := by unfold lineMemDone; split <;> simp

@[simp] theorem lineWbDone_sealed (space line : Nat) (s : State) : (lineWbDone space line s).sealed = s.sealed := by simp [lineWbDone]

@[simp] theorem lineTransactionDone_sealed (space line : Nat) (s : State) :
    (lineTransactionDone space line s).sealed = s.sealed := by unfold lineTransactionDone; split <;> simp

@[simp] theorem cacheFill_sealed (space line : Nat) (s : State) : (cacheFill space line s).sealed = s.sealed := by simp [cacheFill]

@[simp] theorem dirEntryFill_sealed (space line : Nat) (ue : Bool) (s : State) :
    (dirEntryFill space line ue s).sealed = s.sealed := by unfold dirEntryFill; split <;> simp

@[simp] theorem probeAnswered_sealed (space line tag : Nat) (data : Option (List Byte)) (pois : Bool) (s : State) :
    (probeAnswered space line tag data pois s).sealed = s.sealed := by
  unfold probeAnswered
  split
  · simp
  · split <;> simp

@[simp] theorem probeAnswer_sealed (p : Kmt) (s : State) : (probeAnswer p s).sealed = s.sealed := by unfold probeAnswer; split <;> simp

@[simp] theorem releaseGrant_sealed (slice : Nat) (s : State) :
    (releaseGrant slice s).sealed = s.sealed := by unfold releaseGrant; split <;> simp

@[simp] theorem belayHoldExpiry_sealed (space line agent : Nat) (s : State) : (belayHoldExpiry space line agent s).sealed = s.sealed := by
  unfold belayHoldExpiry
  dsimp only
  split
  · simp
  · split <;> simp

@[simp] theorem agentDeath_sealed (apt n cause : Nat) (s : State) : (agentDeath apt n cause s).sealed = s.sealed := by simp [agentDeath]

@[simp] theorem probeTmoExpiry_sealed (tag : Nat) (s : State) :
    (probeTmoExpiry tag s).sealed = s.sealed := by unfold probeTmoExpiry; split <;> simp

@[simp] theorem deadUsExpiry_sealed (apt n : Nat) (s : State) : (deadUsExpiry apt n s).sealed = s.sealed := by
  unfold deadUsExpiry
  dsimp only
  (repeat' split) <;> simp

@[simp] theorem evictAgent_sealed (v : Nat) (s : State) : (evictAgent v s).sealed = s.sealed := by simp [evictAgent]

@[simp] theorem reclaimWalkDone_sealed (apt n : Nat) (s : State) :
    (reclaimWalkDone apt n s).sealed = s.sealed := by unfold reclaimWalkDone; split <;> simp

@[simp] theorem startWalk_sealed (space lo hi : Nat) (ext region : Option Nat) (s : State) :
    (startWalk space lo hi ext region s).sealed = s.sealed := by simp [startWalk]

@[simp] theorem clearEnts_sealed (space lo hi : Nat) (s : State) : (clearEnts space lo hi s).sealed = s.sealed := by simp [clearEnts]

@[simp] theorem joinAgent_sealed (r : Req) (s : State) : (joinAgent r s).sealed = s.sealed := by
  unfold joinAgent
  split
  · simp
  · split <;> simp

@[simp] theorem leaveAgent_sealed (r : Req) (s : State) : (leaveAgent r s).sealed = s.sealed := by
  unfold leaveAgent
  split
  · simp
  · split <;> simp

@[simp] theorem endShort_sealed (c : CmdRec) (status : Nat) (params : List Byte) (s : State) :
    (endShort c status params s).sealed = s.sealed := by simp [endShort]

@[simp] theorem endPub_sealed (q : Pub) (status : Nat) (cairn : Option Nat) (gate : Gate) (s : State) :
    (endPub q status cairn gate s).sealed = s.sealed := by simp only [endPub]; split <;> simp

@[simp] theorem makeCairn_sealed (q : Pub) (s : State) : (makeCairn q s).sealed = s.sealed := by simp [makeCairn]

@[simp] theorem acceptCairn_sealed (q : Pub) (r : Region) (s : State) :
    (acceptCairn q r s).sealed = s.sealed := by simp only [acceptCairn]; split <;> simp

@[simp] theorem writeCairn_sealed (q : Pub) (r : Region) (s : State) : (writeCairn q r s).sealed = s.sealed := by
  unfold writeCairn
  dsimp only
  split
  · split <;> simp
  split
  · split
    · split <;> simp
    · simp
  split
  · split <;> simp
  split
  · next h => simpa using memDirect_sealed h
  · split <;> simp

@[simp] theorem stepPub_go_sealed (q : Pub) (s : State) : (stepPub.go q s).sealed = s.sealed := by unfold stepPub.go; split <;> simp

@[simp] theorem stepPub_sealed (q : Pub) (s : State) : (stepPub q s).sealed = s.sealed := by
  unfold stepPub
  split
  · simp
  · split <;> simp

@[simp] theorem runPubs_sealed (n : Nat) (s : State) : (runPubs n s).sealed = s.sealed := by
  induction n generalizing s with
  | zero => rfl
  | succ n ih => simp [runPubs, ih]

@[simp] theorem pushPub_sealed (region cairn : Nat) (who : PubFrom) (s : State) :
    (pushPub region cairn who s).sealed = s.sealed := by simp [pushPub]

@[simp] theorem addPub_sealed (region cairn : Nat) (who : PubFrom) (s : State) :
    (addPub region cairn who s).sealed = s.sealed := by simp [addPub]

@[simp] theorem cairnWritten_sealed (id status : Nat) (s : State) : (cairnWritten id status s).sealed = s.sealed := by
  unfold cairnWritten
  split
  · simp
  · split <;> simp

@[simp] theorem cairnAnswered_sealed (id : Nat) (s : State) :
    (cairnAnswered id s).sealed = s.sealed := by unfold cairnAnswered; split <;> simp

/-! ### Memory operations of requests and windows -/

theorem toMemory_sealed {e : Extent} {x : Nat} {p : Kmt} {lp tc crest : Nat} {rs : List Req} {why : Why} {s : State} {t : State}
    (h : toMemory e x p lp tc crest rs why s = some t) :
    t.sealed = s.sealed := by
  unfold toMemory at h
  split at h
  · obtain rfl := Option.some.inj h
    simp
  · exact memDirect_sealed h

@[simp] theorem closeWindow_sealed (w : Window) (s : State) : (closeWindow w s).sealed = s.sealed := by
  unfold closeWindow
  dsimp only
  split
  · rfl
  split
  · split
    · simp
    split
    · simp
    split
    · next h => simpa using toMemory_sealed h
    · simp
  · simp

@[simp] theorem closeOverlap_sealed (crest space a n : Nat) (but : Option Nat) (s : State) :
    (closeOverlap crest space a n but s).sealed = s.sealed := by simp [closeOverlap]

@[simp] theorem dropExtent_sealed (x : Nat) (s : State) : (dropExtent x s).sealed = s.sealed := by unfold dropExtent; split <;> simp

@[simp] theorem finishRevoke_sealed (v : Revoke) (failed : Bool) (s : State) :
    (finishRevoke v failed s).sealed = s.sealed := by simp [finishRevoke]

@[simp] theorem sendFences_sealed (x tray : Nat) (s : State) : (sendFences x tray s).sealed = s.sealed := by simp [sendFences]

@[simp] theorem stepRevoke_sealed (v : Revoke) (s : State) : (stepRevoke v s).sealed = s.sealed := by
  unfold stepRevoke
  split
  · simp
  split
  · simp
  · split <;> simp

@[simp] theorem settleQuiesce_sealed (s : State) : (settleQuiesce s).sealed = s.sealed := by simp [settleQuiesce]
@[simp] theorem settleXlt_sealed (s : State) : (settleXlt s).sealed = s.sealed := by simp [settleXlt]
@[simp] theorem addPiece_sealed (id : Nat) (p : Piece) (s : State) : (addPiece id p s).sealed = s.sealed := by simp [addPiece]

@[simp] theorem issuePiece_sealed (id k space a n tc crest : Nat) (s : State) :
    (issuePiece id k space a n tc crest s).sealed = s.sealed := by
  unfold issuePiece
  split
  · simp
  split
  · simp
  split
  · simp
  split
  · simp
  split
  · next h => simpa using issueTray_sealed h
  · simp

@[simp] theorem issueRead_sealed (k job space a n tc crest : Nat) (s : State) :
    (issueRead k job space a n tc crest s).2.sealed = s.sealed := by simp [issueRead]

@[simp] theorem dropRead_sealed (id : Nat) (s : State) : (dropRead id s).sealed = s.sealed := by unfold dropRead; split <;> simp

@[simp] theorem closeIntent_sealed (lane lsn status : Nat) (old : List Byte) (s : State) :
    (closeIntent lane lsn status old s).sealed = s.sealed := by unfold closeIntent; split <;> simp

@[simp] theorem memDone_sealed (why : Why) (tag status : Nat) (data : List Byte) (m : Option Nat) (gate : Gate) (s : State) :
    (memDone why tag status data m gate s).sealed = s.sealed := by unfold memDone; split <;> simp

@[simp] theorem trayEnd_sealed (r : TrayReq) (status : Nat) (data : List Byte) (m : Option Nat) (s : State) :
    (trayEnd r status data m s).sealed = s.sealed := by unfold trayEnd; split <;> simp

@[simp] theorem trayFail_sealed (r : TrayReq) (s : State) : (trayFail r s).sealed = s.sealed := by simp [trayFail]
@[simp] theorem reissue_sealed (r : TrayReq) (s : State) : (reissue r s).sealed = s.sealed := by simp only [reissue]; split <;> simp
@[simp] theorem portLost_sealed (lp : Nat) (s : State) : (portLost lp s).sealed = s.sealed := by simp [portLost]

@[simp] theorem trayTmoExpiry_sealed (tag : Nat) (s : State) : (trayTmoExpiry tag s).sealed = s.sealed := by
  unfold trayTmoExpiry
  split
  · simp
  · split <;> simp

@[simp] theorem trayAnswer_sealed (p : Kmt) (s : State) : (trayAnswer p s).sealed = s.sealed := by unfold trayAnswer; split <;> simp
@[simp] theorem hbmUe_sealed (ws : List Nat) (s : State) : (hbmUe ws s).sealed = s.sealed := by simp [hbmUe]

@[simp] theorem hbmFinish_sealed (id : Nat) (ue : List Nat) (s : State) :
    (hbmFinish id ue s).sealed = s.sealed := by unfold hbmFinish; split <;> simp

@[simp] theorem dropWindows_sealed (s : State) : (dropWindows s).sealed = s.sealed := by simp [dropWindows]

@[simp] theorem endInFlight_sealed (p : Req → Bool) (tray : TrayReq → Bool) (ops : List HbmOp) (status : Nat) (s : State) :
    (endInFlight p tray ops status s).sealed = s.sealed := by simp [endInFlight]

@[simp] theorem endUnitReads_sealed (x : Nat) (s : State) : (endUnitReads x s).sealed = s.sealed := by unfold endUnitReads; split <;> simp
@[simp] theorem drainTimeout_sealed (x : Nat) (s : State) : (drainTimeout x s).sealed = s.sealed := by unfold drainTimeout; split <;> simp
@[simp] theorem markRevoke_sealed (x : Nat) (s : State) : (markRevoke x s).sealed = s.sealed := by unfold markRevoke; split <;> simp
@[simp] theorem beginRevoke_sealed (x : Nat) (s : State) : (beginRevoke x s).sealed = s.sealed := by simp [beginRevoke]

@[simp] theorem dropRegion_sealed (i : Nat) (s : State) : (dropRegion i s).sealed = s.sealed := by
  unfold dropRegion
  dsimp only
  (repeat' split) <;> simp

@[simp] theorem endRegion_sealed (i : Nat) (s : State) : (endRegion i s).sealed = s.sealed := by simp [endRegion]

@[simp] theorem recallWalkDone_sealed (id : Nat) (s : State) : (recallWalkDone id s).sealed = s.sealed := by
  unfold recallWalkDone
  (repeat' split) <;> simp

/-! ### Ports and links -/

@[simp] theorem rxBad_sealed (lp : Nat) (s : State) : (rxBad lp s).sealed = s.sealed := by simp [rxBad]

@[simp] theorem captureDrop_sealed (lp ilp tc : Nat) (c : Cargo) (k : Nat) (poison mcast : Bool) (drop : Nat) (s : State) :
    (captureDrop lp ilp tc c k poison mcast drop s).sealed = s.sealed := by
  unfold captureDrop
  split
  · simp
  · split <;> simp

@[simp] theorem sendAck_sealed (lp : Nat) (s : State) : (sendAck lp s).sealed = s.sealed := by simp [sendAck]
@[simp] theorem sendNak_sealed (lp reason : Nat) (s : State) : (sendNak lp reason s).sealed = s.sealed := by simp [sendNak]
@[simp] theorem freeCredit_sealed (lp tc n : Nat) (s : State) : (freeCredit lp tc n s).sealed = s.sealed := by simp [freeCredit]
@[simp] theorem ackUpTo_sealed (lp ackseq : Nat) (s : State) : (ackUpTo lp ackseq s).sealed = s.sealed := by simp [ackUpTo]
@[simp] theorem takeLimits_sealed (lp : Nat) (f : List Byte) (s : State) : (takeLimits lp f s).sealed = s.sealed := by simp [takeLimits]
@[simp] theorem addPenalty_sealed (lp : Nat) (s : State) : (addPenalty lp s).sealed = s.sealed := by simp [addPenalty]
@[simp] theorem dropQueued_sealed (lp ctrA : Nat) (s : State) : (dropQueued lp ctrA s).sealed = s.sealed := by simp [dropQueued]
@[simp] theorem goDown_sealed (lp cause : Nat) (s : State) : (goDown lp cause s).sealed = s.sealed := by simp [goDown]
@[simp] theorem idleLanes_sealed (st : Nat) (s : State) : (idleLanes st s).sealed = s.sealed := by simp [idleLanes]
@[simp] theorem selfStop_sealed (cause : Nat) (s : State) : (selfStop cause s).sealed = s.sealed := by simp [selfStop]
@[simp] theorem sendCtl_sealed (lp : Nat) (body : List Byte) (s : State) : (sendCtl lp body s).sealed = s.sealed := by simp [sendCtl]
@[simp] theorem sendInit_sealed (lp : Nat) (s : State) : (sendInit lp s).sealed = s.sealed := by simp [sendInit]
@[simp] theorem tryActive_sealed (lp : Nat) (s : State) : (tryActive lp s).sealed = s.sealed := by simp [tryActive]
@[simp] theorem pcsLock_sealed (lp : Nat) (s : State) : (pcsLock lp s).sealed = s.sealed := by simp [pcsLock]
@[simp] theorem initTimer_sealed (lp : Nat) (s : State) : (initTimer lp s).sealed = s.sealed := by simp [initTimer]
@[simp] theorem noKmtPeerTimeout_sealed (lp : Nat) (s : State) : (noKmtPeerTimeout lp s).sealed = s.sealed := by simp [noKmtPeerTimeout]
@[simp] theorem heard_sealed (lp : Nat) (s : State) : (heard lp s).sealed = s.sealed := by simp [heard]
@[simp] theorem linkctlInit_sealed (lp : Nat) (f : List Byte) (s : State) : (linkctlInit lp f s).sealed = s.sealed := by simp [linkctlInit]

@[simp] theorem linkctlInitAck_sealed (lp : Nat) (f : List Byte) (s : State) :
    (linkctlInitAck lp f s).sealed = s.sealed := by simp [linkctlInitAck]

@[simp] theorem startReplay_sealed (lp from_ : Nat) (s : State) : (startReplay lp from_ s).sealed = s.sealed := by simp [startReplay]
@[simp] theorem ackReceive_sealed (lp : Nat) (f : List Byte) (s : State) : (ackReceive lp f s).sealed = s.sealed := by simp [ackReceive]
@[simp] theorem nakReceive_sealed (lp : Nat) (f : List Byte) (s : State) : (nakReceive lp f s).sealed = s.sealed := by simp [nakReceive]

@[simp] theorem replayTmoExpiry_sealed (lp : Nat) (s : State) : (replayTmoExpiry lp s).sealed = s.sealed := by
  unfold replayTmoExpiry
  split
  · simp
  · split <;> simp

@[simp] theorem ackDelayExpiry_sealed (lp : Nat) (s : State) : (ackDelayExpiry lp s).sealed = s.sealed := by simp [ackDelayExpiry]
@[simp] theorem idleAckTimer_sealed (lp : Nat) (s : State) : (idleAckTimer lp s).sealed = s.sealed := by simp [idleAckTimer]

@[simp] theorem nakHoldoffExpiry_sealed (lp : Nat) (s : State) : (nakHoldoffExpiry lp s).sealed = s.sealed := by
  unfold nakHoldoffExpiry
  split
  · simp
  · split <;> simp

@[simp] theorem takePn_sealed (lp : Nat) (s : State) : (takePn lp s).2.sealed = s.sealed := by
  unfold takePn
  split
  · simp
  · split <;> simp

@[simp] theorem putData_sealed (lp : Nat) (t : TxFrame) (s : State) : (putData lp t s).sealed = s.sealed := by simp [putData]

@[simp] theorem dataFrameSend_sealed (lp : Nat) (s : State) : (dataFrameSend lp s).sealed = s.sealed := by
  unfold dataFrameSend
  dsimp only
  (repeat' split) <;> simp

@[simp] theorem sendMarker_sealed (lp mtype mask cw : Nat) (s : State) :
    (sendMarker lp mtype mask cw s).sealed = s.sealed := by simp [sendMarker]

@[simp] theorem startMove_sealed (lp mask : Nat) (isRestore : Bool) (s : State) :
    (startMove lp mask isRestore s).sealed = s.sealed := by simp [startMove]

@[simp] theorem laneFail_sealed (lp lane : Nat) (c : LaneCause) (s : State) : (laneFail lp lane c s).sealed = s.sealed := by
  unfold laneFail
  dsimp only
  (repeat' split) <;> simp

@[simp] theorem moveAsked_sealed (lp : Nat) (m : Marker) (isRestore : Bool) (s : State) :
    (moveAsked lp m isRestore s).sealed = s.sealed := by simp [moveAsked]

@[simp] theorem finishMove_sealed (lp : Nat) (m : LaneMove) (s : State) : (finishMove lp m s).sealed = s.sealed := by simp [finishMove]

@[simp] theorem moveAcked_sealed (lp : Nat) (mk : Marker) (isRestore : Bool) (s : State) :
    (moveAcked lp mk isRestore s).sealed = s.sealed := by
  unfold moveAcked
  split
  · simp
  · split <;> simp

@[simp] theorem degrade_sealed (lp : Nat) (m : Marker) (s : State) : (degrade lp m s).sealed = s.sealed := by simp [degrade]
@[simp] theorem degradeAck_sealed (lp : Nat) (m : Marker) (s : State) : (degradeAck lp m s).sealed = s.sealed := by simp [degradeAck]
@[simp] theorem restore_sealed (lp : Nat) (m : Marker) (s : State) : (restore lp m s).sealed = s.sealed := by simp [restore]
@[simp] theorem restoreAck_sealed (lp : Nat) (m : Marker) (s : State) : (restoreAck lp m s).sealed = s.sealed := by simp [restoreAck]

@[simp] theorem degradeRepeatTimer_sealed (lp : Nat) (s : State) :
    (degradeRepeatTimer lp s).sealed = s.sealed := by unfold degradeRepeatTimer; split <;> simp

@[simp] theorem switchCw_sealed (lp : Nat) (s : State) : (switchCw lp s).sealed = s.sealed := by unfold switchCw; split <;> simp

@[simp] theorem degradeAckTimeout_sealed (lp : Nat) (s : State) :
    (degradeAckTimeout lp s).sealed = s.sealed := by unfold degradeAckTimeout; split <;> simp

@[simp] theorem restoreTimer_sealed (lp lane : Nat) (s : State) : (restoreTimer lp lane s).sealed = s.sealed := by
  unfold restoreTimer
  dsimp only
  split
  · simp
  · split <;> simp

@[simp] theorem pcsAlignLoss_sealed (lp : Nat) (s : State) : (pcsAlignLoss lp s).sealed = s.sealed := by simp [pcsAlignLoss]
@[simp] theorem silenceTimeout_sealed (lp : Nat) (s : State) : (silenceTimeout lp s).sealed = s.sealed := by simp [silenceTimeout]
@[simp] theorem penaltyRecompute_sealed (lp : Nat) (s : State) : (penaltyRecompute lp s).sealed = s.sealed := by simp [penaltyRecompute]
@[simp] theorem rehomeMsExpiry_sealed (lp : Nat) (s : State) : (rehomeMsExpiry lp s).sealed = s.sealed := by simp [rehomeMsExpiry]
@[simp] theorem enterRehome_sealed (lp : Nat) (s : State) : (enterRehome lp s).sealed = s.sealed := by simp [enterRehome]
@[simp] theorem modeOff_sealed (p : Nat) (s : State) : (modeOff p s).sealed = s.sealed := by simp [modeOff]
@[simp] theorem retrain_sealed (p v : Nat) (s : State) : (retrain p v s).sealed = s.sealed := by simp [retrain]

/-! ### The switch core -/

@[simp] theorem forwardPoison_sealed (lp tc : Nat) (body : List Byte) (cells : Nat) (s : State) :
    (forwardPoison lp tc body cells s).sealed = s.sealed := by
  unfold forwardPoison
  split
  · simp
  · split <;> simp

@[simp] theorem dropTrunk_sealed (ilp tc : Nat) (p : Kmt) (s : State) : (dropTrunk ilp tc p s).sealed = s.sealed := by simp [dropTrunk]

@[simp] theorem sendDst_sealed (inp tc : Nat) (p : Kmt) (gate : Gate) (s : State) : (sendDst inp tc p gate s).sealed = s.sealed := by
  unfold sendDst
  split
  · rfl
  · simp
  · split <;> simp

@[simp] theorem answerSrc_sealed (lp tc : Nat) (p : Kmt) (status : Nat) (s : State) :
    (answerSrc lp tc p status s).sealed = s.sealed := by simp [answerSrc]

@[simp] theorem takeBody_sealed (lp tc cells : Nat) (body : List Byte) (s : State) :
    (takeBody lp tc cells body s).sealed = s.sealed := by simp only [takeBody]; split <;> simp

@[simp] theorem advance_sealed (lp : Nat) (s : State) : (advance lp s).sealed = s.sealed := by simp [advance]

@[simp] theorem dataFrameReceive_sealed (lp : Nat) (sec : Sec) (f : List Byte) (fcs : Fcs) (s : State) :
    (dataFrameReceive lp sec f fcs s).sealed = s.sealed := by
  simp only [dataFrameReceive]
  generalize readBlocks _ 0 _ = b
  obtain ⟨ok, _ | k⟩ := b <;> simp

@[simp] theorem pfcCheck_sealed (s : State) : (pfcCheck s).sealed = s.sealed := by simp [pfcCheck]

@[simp] theorem flushEgress_sealed (s : State) : (flushEgress s).sealed = s.sealed := by
  refine each_sealed _ (fun f t => ?_) s
  dsimp only
  split <;> simp

@[simp] theorem plainFrameReceive_sealed (lp : Nat) (sec : Sec) (f : PlainFrame) (fcs : Fcs) (s : State) :
    (plainFrameReceive lp sec f fcs s).sealed = s.sealed := by
  unfold plainFrameReceive
  dsimp only
  (repeat' split) <;> simp

@[simp] theorem pfcFrameReceive_sealed (lp prio quanta : Nat) (s : State) :
    (pfcFrameReceive lp prio quanta s).sealed = s.sealed := by simp [pfcFrameReceive]

@[simp] theorem arpRequest_sealed (lp target srcMac srcIp : Nat) (s : State) :
    (arpRequest lp target srcMac srcIp s).sealed = s.sealed := by simp [arpRequest]

@[simp] theorem neighbourSolicitation_sealed (lp target srcMac srcIp : Nat) (s : State) :
    (neighbourSolicitation lp target srcMac srcIp s).sealed = s.sealed := by simp [neighbourSolicitation]

@[simp] theorem lldpFrame_sealed (lp : Nat) (b : List Byte) (s : State) : (lldpFrame lp b s).sealed = s.sealed := by simp [lldpFrame]

@[simp] theorem deliver_sealed (f : VFrame) (lp : Nat) (s : State) : (deliver f lp s).sealed = s.sealed := by
  unfold deliver
  (repeat' split) <;> simp

@[simp] theorem retire_sealed (fid : Nat) (s : State) : (retire fid s).sealed = s.sealed := by unfold retire; split <;> simp

@[simp] theorem slot_sealed (c : Cand) (s : State) : (slot c s).sealed = s.sealed := by
  unfold slot
  dsimp only
  split
  · simp
  · split <;> simp

@[simp] theorem shiftL3_sealed (pairs : List Cand) (s : State) : (shiftL3 pairs s).sealed = s.sealed := by simp [shiftL3]
@[simp] theorem dropDead_sealed (s : State) : (dropDead s).sealed = s.sealed := by simp [dropDead]

@[simp] theorem unstall_sealed (s : State) : (unstall s).sealed = s.sealed := by
  refine each_sealed _ (fun f t => ?_) s
  split <;> simp

@[simp] theorem matchingCycle_sealed (agree : Bool) (s : State) : (matchingCycle agree s).sealed = s.sealed := by simp [matchingCycle]

/-! ### Load/store requests and messages -/

@[simp] theorem takeRx_sealed (lp tc : Nat) (p : Kmt) (s : State) : (takeRx lp tc p s).sealed = s.sealed := by unfold takeRx; split <;> simp

@[simp] theorem lsRefuse_sealed (lp tc : Nat) (p : Kmt) (dst status load ctr : Nat) (s : State) :
    (lsRefuse lp tc p dst status load ctr s).sealed = s.sealed := by simp [lsRefuse]

@[simp] theorem measure_sealed (r : Req) (s : State) : (measure r s).sealed = s.sealed := by simp [measure]
@[simp] theorem measureClose_sealed (r : Req) (n : Nat) (s : State) : (measureClose r n s).sealed = s.sealed := by simp [measureClose]
@[simp] theorem closeDue_sealed (crest : Nat) (s : State) : (closeDue crest s).sealed = s.sealed := by simp [closeDue]

@[simp] theorem ownOp_sealed (r : Req) (x : Nat) (e : Extent) (s : State) : (ownOp r x e s).sealed = s.sealed := by
  unfold ownOp
  split
  · next h => exact toMemory_sealed h
  · simp

@[simp] theorem combine_sealed (r : Req) (x : Nat) (e : Extent) (s : State) : (combine r x e s).sealed = s.sealed := by
  unfold combine
  dsimp only
  split
  · simp
  split
  · split
    · next h => simpa using toMemory_sealed h
    · simp
  · simp

@[simp] theorem memRequest_sealed (r : Req) (s : State) : (memRequest r s).sealed = s.sealed := by
  unfold memRequest
  dsimp only
  split
  · simp
  · split <;> simp

@[simp] theorem lsExecute_sealed (r : Req) (s : State) : (lsExecute r s).sealed = s.sealed := by
  unfold lsExecute
  dsimp only
  (repeat' split) <;> simp

@[simp] theorem loadStore_sealed (lp tc : Nat) (p : Kmt) (s : State) : (loadStore lp tc p s).sealed = s.sealed := by
  unfold loadStore
  dsimp only
  split
  · simp
  split
  · simp
  · split <;> simp

@[simp] theorem forwardTo_sealed (lp tc out : Nat) (p : Kmt) (credit : Nat) (s : State) :
    (forwardTo lp tc out p credit s).sealed = s.sealed := by simp [forwardTo]

@[simp] theorem forwardMsg_sealed (lp tc : Nat) (p : Kmt) (credit : Nat) (s : State) : (forwardMsg lp tc p credit s).sealed = s.sealed := by
  unfold forwardMsg
  (repeat' split) <;> simp

@[simp] theorem message_sealed (lp tc : Nat) (p : Kmt) (s : State) : (message lp tc p s).sealed = s.sealed := by simp [message]
@[simp] theorem msgResponse_sealed (lp tc : Nat) (p : Kmt) (s : State) : (msgResponse lp tc p s).sealed = s.sealed := by simp [msgResponse]

@[simp] theorem combWindowClose_sealed (id : Nat) (s : State) :
    (combWindowClose id s).sealed = s.sealed := by unfold combWindowClose; split <;> simp

@[simp] theorem combDecide_sealed (crest tc : Nat) (s : State) : (combDecide crest tc s).sealed = s.sealed := by simp [combDecide]
@[simp] theorem combDecision_sealed (crest : Nat) (s : State) : (combDecision crest s).sealed = s.sealed := by simp [combDecision]
@[simp] theorem rateAdjust_sealed (s : State) : (rateAdjust s).sealed = s.sealed := by simp [rateAdjust]

@[simp] theorem replyCacheExpiry_sealed (crest src tag : Nat) (s : State) :
    (replyCacheExpiry crest src tag s).sealed = s.sealed := by unfold replyCacheExpiry; split <;> simp

/-! ### How a command of a queue starts and ends -/

@[simp] theorem takeStart_sealed (c : CmdRec) (s : State) : (takeStart c s).sealed = s.sealed := by simp [takeStart]

@[simp] theorem reply_sealed (c : CmdRec) (status load : Nat) (params : List Byte) (s : State) :
    (reply c status load params s).sealed = s.sealed := by simp [reply]

@[simp] theorem replyAtStart_sealed (c : CmdRec) (status load : Nat) (params : List Byte) (s : State) :
    (replyAtStart c status load params s).sealed = s.sealed := by simp [replyAtStart]

@[simp] theorem applyRes_sealed (c : CmdRec) (r : CmdRes) (s : State) :
    (applyRes c r s).sealed = s.sealed := by unfold applyRes; split <;> simp

/-- What a command's run does to the sealed part, its body does, and from a state with the same sealed part. -/
theorem runBody_sealed_cases (c : CmdRec) (extra : List Byte) (body : CmdRec → State → CmdRes × State) (s : State) :
    (runBody c extra body s).sealed = s.sealed ∨
      ∃ t : State, t.sealed = s.sealed ∧ (runBody c extra body s).sealed = (body c t).2.sealed := by
  unfold runBody
  dsimp only
  split
  · split
    · split
      · exact .inr ⟨s, rfl, by simp⟩
      · split
        · exact .inl (by simp)
        · exact .inr ⟨_, logRec_sealed _ _ _, applyRes_sealed _ _ _⟩
    · split
      · exact .inl (by simp)
      · exact .inr ⟨_, logRec_sealed _ _ _, applyRes_sealed _ _ _⟩
  · exact .inr ⟨s, rfl, by simp⟩

theorem startCmd_sealed_cases (c : CmdRec) (extra : List Byte) (body : CmdRec → State → CmdRes × State) (s : State) :
    (startCmd c extra body s).sealed = s.sealed ∨
      ∃ t : State, t.sealed = s.sealed ∧ (startCmd c extra body s).sealed = (body c t).2.sealed := by
  unfold startCmd
  dsimp only
  split
  · exact .inl (by simp)
  · simpa using runBody_sealed_cases c extra body (takeStart c s)

@[simp] theorem startCmd_sealed (c : CmdRec) (extra : List Byte) (body : CmdRec → State → CmdRes × State) (s : State) (hbody : ∀ x u,
    (body x u).2.sealed = u.sealed) :
    (startCmd c extra body s).sealed = s.sealed := by
  obtain e | ⟨t, ht, e⟩ := startCmd_sealed_cases c extra body s
  · exact e
  · rw [e, hbody, ht]

@[simp] theorem settleQueues_sealed (n : Nat) (s : State) : (settleQueues n s).sealed = s.sealed := by
  induction n generalizing s with
  | zero => rfl
  | succ n ih =>
    unfold settleQueues
    split
    · rfl
    · simp [ih]

theorem runCmd_sealed_cases (k q op : Nat) (act : Nat → Bool) (body : CmdRec → State → CmdRes × State) (s : State) :
    (runCmd k q op act body s).sealed = s.sealed ∨
      ∃ (c : CmdRec) (t : State), t.sealed = s.sealed ∧ (runCmd k q op act body s).sealed = (body c t).2.sealed := by
  unfold runCmd
  split
  · exact .inl rfl
  split
  · exact .inl rfl
  next c _ =>
  split
  · obtain h | ⟨t, ht, h⟩ := startCmd_sealed_cases c [] body s
    · exact .inl (by simpa using h)
    · exact .inr ⟨c, t, ht, by simpa using h⟩
  · exact .inl rfl

@[simp] theorem runCmd_sealed (k q op : Nat) (act : Nat → Bool) (body : CmdRec → State → CmdRes × State) (s : State) (hbody : ∀ x u,
    (body x u).2.sealed = u.sealed) :
    (runCmd k q op act body s).sealed = s.sealed := by
  obtain e | ⟨c, t, ht, e⟩ := runCmd_sealed_cases k q op act body s
  · exact e
  · rw [e, hbody, ht]

@[simp] theorem bad_sealed (st : Nat) (s : State) : (bad st s).2.sealed = s.sealed := by simp [bad]
@[simp] theorem retryRes_sealed (load : Nat) (s : State) : (retryRes load s).2.sealed = s.sealed := by simp [retryRes]
@[simp] theorem noQuota_sealed (s : State) : (noQuota s).2.sealed = s.sealed := by simp [noQuota]

/-! ### Engine and Haul units -/

@[simp] theorem setUnit_sealed (key : Nat) (f : EUnit → EUnit) (s : State) : (setUnit key f s).sealed = s.sealed := by simp [setUnit]
@[simp] theorem setDesc_sealed (id : Nat) (f : Desc → Desc) (s : State) : (setDesc id f s).sealed = s.sealed := by simp [setDesc]

@[simp] theorem sendGroup_sealed (g inp tc : Nat) (p : Kmt) (gate : Gate) (s : State) :
    (sendGroup g inp tc p gate s).sealed = s.sealed := by simp [sendGroup]

@[simp] theorem launch_sealed (inp tc : Nat) (p : Kmt) (group : Option Nat) (gate : Gate) (s : State) :
    (launch inp tc p group gate s).sealed = s.sealed := by
  unfold launch
  split
  · simp
  · split <;> simp

@[simp] theorem sendEng_sealed (d : Desc) (inp tc : Nat) (p : Kmt) (what : SentFor) (group : Option Nat) (need : List Nat) (gate : Gate) (s : State) :
    (sendEng d inp tc p what group need gate s).sealed = s.sealed := by simp [sendEng]

@[simp] theorem engReply_sealed (lp tc : Nat) (p : Kmt) (status load : Nat) (data : List Byte) (inp : Nat) (s : State) :
    (engReply lp tc p status load data inp s).sealed = s.sealed := by simp [engReply]

@[simp] theorem takeAnswer_sealed (e : ESent) (src : Nat) (s : State) : (takeAnswer e src s).2.sealed = s.sealed := by simp [takeAnswer]
@[simp] theorem sendAgain_sealed (e : ESent) (src : Nat) (s : State) : (sendAgain e src s).sealed = s.sealed := by simp [sendAgain]

@[simp] theorem logOwn_sealed (kind : Nat) (d : Desc) (extra : List Byte) (s : State) :
    (logOwn kind d extra s).1.sealed = s.sealed := by simp [logOwn]

@[simp] theorem logInput_sealed (tile kind comp : Nat) (item : List Byte) (s : State) :
    (logInput tile kind comp item s).sealed = s.sealed := by simp [logInput]

@[simp] theorem finishDesc_sealed (id status done : Nat) (g : Gate) (s : State) :
    (finishDesc id status done g s).sealed = s.sealed := by unfold finishDesc; split <;> simp

@[simp] theorem answerHeld_sealed (d : Desc) (status : Nat) (s : State) :
    (answerHeld d status s).sealed = s.sealed := by unfold answerHeld; split <;> simp

@[simp] theorem stopDesc_sealed (status : Nat) (d : Desc) (s : State) : (stopDesc status d s).sealed = s.sealed := by simp [stopDesc]
@[simp] theorem stopUnit_sealed (u status : Nat) (s : State) : (stopUnit u status s).sealed = s.sealed := by simp [stopUnit]

@[simp] theorem ropeFormBody_sealed (c : CmdRec) (s : State) : (ropeFormBody c s).2.sealed = s.sealed := by
  unfold ropeFormBody
  dsimp only
  (repeat' split) <;> simp

@[simp] theorem ropeDissolveBody_sealed (c : CmdRec) (s : State) : (ropeDissolveBody c s).2.sealed = s.sealed := by simp [ropeDissolveBody]

@[simp] theorem beginChange_sealed (key role k status : Nat) (drain : Bool) (s : State) :
    (beginChange key role k status drain s).sealed = s.sealed := by simp [beginChange]

@[simp] theorem roleAssignBody_sealed (stop : Nat → Nat → State → State) (c : CmdRec) (s : State) (hstop : ∀ x y u, (stop x y u).sealed = u.sealed) :
    (roleAssignBody stop c s).2.sealed = s.sealed := by simp [roleAssignBody, hstop]

@[simp] theorem zeroTiles_sealed (key : Nat) (s : State) : (zeroTiles key s).sealed = s.sealed := by simp [zeroTiles]
@[simp] theorem hideUnit_sealed (key : Nat) (s : State) : (hideUnit key s).sealed = s.sealed := by simp [hideUnit]

@[simp] theorem roleScrubStart_sealed (key : Nat) (idle : Bool) (s : State) :
    (roleScrubStart key idle s).sealed = s.sealed := by simp [roleScrubStart]

@[simp] theorem roleScrubDone_sealed (k : UKind) (unit : Nat) (s : State) :
    (roleScrubDone k unit s).sealed = s.sealed := by simp only [roleScrubDone]; split <;> simp

@[simp] theorem beginReset_sealed (key : Nat) (s : State) : (beginReset key s).sealed = s.sealed := by simp [beginReset]
@[simp] theorem endReset_sealed (key : Nat) (clean : Bool) (s : State) : (endReset key clean s).sealed = s.sealed := by simp [endReset]
@[simp] theorem rowCount_sealed (r : Row) (s : State) : (rowCount r s).sealed = s.sealed := by simp [rowCount]
@[simp] theorem dupCount_sealed (d : Desc) (s : State) : (dupCount d s).sealed = s.sealed := by simp [dupCount]
@[simp] theorem bytesIn_sealed (tile k n : Nat) (s : State) : (bytesIn tile k n s).sealed = s.sealed := by simp [bytesIn]

@[simp] theorem engPacket_sealed (work : Nat → Nat → Kmt → Desc → State → State) (lp tc : Nat) (p : Kmt) (s : State) (hwork : ∀ x y z w u,
    (work x y z w u).sealed = u.sealed) :
    (engPacket work lp tc p s).sealed = s.sealed := by
  unfold engPacket
  dsimp only
  split
  · rfl
  split
  · simp
  split
  · simp
  split
  · simp
  · split <;> simp [hwork]

@[simp] theorem failTile_sealed (key : Nat) (s : State) : (failTile key s).sealed = s.sealed := by simp [failTile]
@[simp] theorem keepRec_sealed (r : OwnRec) (s : State) : (keepRec r s).sealed = s.sealed := by unfold keepRec; split <;> simp
@[simp] theorem anchorHere_sealed (k coll : Nat) (s : State) : (anchorHere k coll s).sealed = s.sealed := by simp [anchorHere]

@[simp] theorem sendOwn_sealed (op dst : Nat) (d : Desc) (rec : List Byte) (s : State) :
    (sendOwn op dst d rec s).sealed = s.sealed := by simp [sendOwn]

@[simp] theorem acceptDesc_sealed (d : Desc) (extra : List Byte) (s : State) :
    (acceptDesc d extra s).1.sealed = s.sealed := by simp [acceptDesc]

@[simp] theorem endPost_sealed (c : CmdRec) (status load : Nat) (s : State) :
    (endPost c status load s).sealed = s.sealed := by simp [endPost]

@[simp] theorem acceptPost_sealed (c : CmdRec) (g : Gate) (s : State) :
    (acceptPost c g s).sealed = s.sealed := by unfold acceptPost; split <;> simp

@[simp] theorem commitWork_sealed (id phase : Nat) (s : State) :
    (commitWork id phase s).1.sealed = s.sealed := by simp only [commitWork]; split <;> simp

/-! ### Collectives -/

@[simp] theorem setNode_sealed (id : Nat) (f : Node → Node) (s : State) : (setNode id f s).sealed = s.sealed := by simp [setNode]
@[simp] theorem collPostBody_sealed (c : CmdRec) (s : State) : (collPostBody c s).2.sealed = s.sealed := by simp [collPostBody]

@[simp] theorem sendDown_sealed (id inp phase addr : Nat) (data : List Byte) (what : SentFor) (gate : Gate) (s : State) :
    (sendDown id inp phase addr data what gate s).sealed = s.sealed := by
  unfold sendDown
  split
  · simp
  · split <;> simp

@[simp] theorem sendResends_sealed (id : Nat) (s : State) : (sendResends id s).sealed = s.sealed := by
  unfold sendResends
  split
  · simp
  · split <;> simp

@[simp] theorem abortNotices_sealed (d : Desc) (s : State) : (abortNotices d s).sealed = s.sealed := by unfold abortNotices; split <;> simp

@[simp] theorem nodeStep_sealed (id : Nat) (s : State) : (nodeStep id s).sealed = s.sealed := by
  unfold nodeStep
  split
  · rfl
  split
  · rfl
  next n _ => cases n.rel <;> simp

@[simp] theorem emitChunk_sealed (id tile j : Nat) (s : State) : (emitChunk id tile j s).sealed = s.sealed := by
  unfold emitChunk
  split
  · simp
  · split <;> simp

@[simp] theorem retireShare_sealed (id i fuel : Nat) (s : State) : (retireShare id i fuel s).sealed = s.sealed := by
  induction fuel generalizing s with
  | zero => rfl
  | succ fuel ih =>
    unfold retireShare
    split
    · rfl
    · split <;> simp [ih]

@[simp] theorem advanceNode_sealed (id : Nat) (s : State) : (advanceNode id s).sealed = s.sealed := by unfold advanceNode; split <;> simp

@[simp] theorem memberTableReadDone_sealed (id : Nat) (s : State) : (memberTableReadDone id s).sealed = s.sealed := by
  unfold memberTableReadDone
  split
  · split <;> simp
  · simp

@[simp] theorem nodeFold_sealed (lp tc : Nat) (p : Kmt) (d : Desc) (n : Node) (i : Nat) (sh : ShareSt) (s : State) :
    (nodeFold lp tc p d n i sh s).sealed = s.sealed := by simp [nodeFold]

@[simp] theorem nodeResend_sealed (d : Desc) (s : State) : (nodeResend d s).sealed = s.sealed := by simp [nodeResend]

@[simp] theorem nodeResult_sealed (lp tc : Nat) (p : Kmt) (d : Desc) (n : Node) (s : State) :
    (nodeResult lp tc p d n s).sealed = s.sealed := by simp [nodeResult]

@[simp] theorem nodePacket_sealed (lp tc : Nat) (p : Kmt) (d : Desc) (s : State) : (nodePacket lp tc p d s).sealed = s.sealed := by
  unfold nodePacket
  split
  · rfl
  split
  · simp
  · split <;> simp

@[simp] theorem engAnswer_sealed (f : ESent → State → State) (lp tc : Nat) (p : Kmt) (s : State) (hf : ∀ x u, (f x u).sealed = u.sealed) :
    (engAnswer f lp tc p s).sealed = s.sealed := by
  unfold engAnswer
  dsimp only
  split
  · rfl
  split
  · simp
  · split <;> simp [hf]

@[simp] theorem partAnswered_sealed (p : Kmt) (e : ESent) (s : State) : (partAnswered p e s).sealed = s.sealed := by simp [partAnswered]

@[simp] theorem resultAnswered_sealed (p : Kmt) (e : ESent) (s : State) : (resultAnswered p e s).sealed = s.sealed := by
  unfold resultAnswered
  dsimp only
  (repeat' split) <;> simp

@[simp] theorem nodeExpire_sealed (d : Desc) (n : Node) (s : State) : (nodeExpire d n s).sealed = s.sealed := by simp [nodeExpire]

/-! ### Gather and pooling -/

@[simp] theorem retireVer_sealed (t : Nat) (v : Ver) (s : State) :
    (retireVer t v s).sealed = s.sealed := by unfold retireVer; split <;> simp

@[simp] theorem retireVersions_sealed (s : State) : (retireVersions s).sealed = s.sealed := by simp [retireVersions]

@[simp] theorem applyRecord_sealed (k : Nat) (b : List Byte) (shadow : Bool) (s : State) :
    (applyRecord k b shadow s).sealed = s.sealed := by simp [applyRecord]

@[simp] theorem endPublish_sealed (c : CmdRec) (status t : Nat) (s : State) :
    (endPublish c status t s).sealed = s.sealed := by simp [endPublish]

@[simp] theorem publishRecord_sealed (c : CmdRec) (b : List Byte) (s : State) : (publishRecord c b s).sealed = s.sealed := by
  unfold publishRecord
  dsimp only
  split
  · simp
  · split <;> simp

@[simp] theorem tablePublishBody_sealed (c : CmdRec) (s : State) : (tablePublishBody c s).2.sealed = s.sealed := by simp [tablePublishBody]

@[simp] theorem recordRead_sealed (id : Nat) (c : CmdRec) (whole : Bool) (s : State) :
    (recordRead id c whole s).sealed = s.sealed := by unfold recordRead; split <;> simp

@[simp] theorem settleRecords_sealed (n : Nat) (s : State) : (settleRecords n s).sealed = s.sealed := by
  induction n generalizing s with
  | zero => rfl
  | succ n ih =>
    unfold settleRecords
    split
    · rfl
    · simp [ih]

@[simp] theorem setBatch_sealed (id : Nat) (f : Batch → Batch) (s : State) : (setBatch id f s).sealed = s.sealed := by simp [setBatch]

@[simp] theorem setGShare_sealed (id i : Nat) (f : GShare → GShare) (s : State) :
    (setGShare id i f s).sealed = s.sealed := by simp [setGShare]

@[simp] theorem setRound_sealed (id i lo : Nat) (f : Round → Round) (s : State) :
    (setRound id i lo f s).sealed = s.sealed := by simp [setRound]

@[simp] theorem tileCount_sealed (u off ropeOff : Nat) (s : State) : (tileCount u off ropeOff s).sealed = s.sealed := by simp [tileCount]

@[simp] theorem sendGrow_sealed (d : Desc) (rec : List Byte) (tile share : Nat) (lo : Option Nat) (k : Nat) (rows : List Nat) (alone : Bool)
    (s : State) :
    (sendGrow d rec tile share lo k rows alone s).sealed = s.sealed := by simp [sendGrow]

@[simp] theorem countRows_sealed (d : Desc) (n : Nat) (s : State) : (countRows d n s).sealed = s.sealed := by simp [countRows]

@[simp] theorem unitRead_sealed (k job space a n tc crest : Nat) (s : State) :
    (unitRead k job space a n tc crest s).2.sealed = s.sealed := by simp [unitRead]

@[simp] theorem fetchRows_sealed (d : Desc) (rec : List Byte) (tile share : Nat) (lo : Option Nat) (k : Nat) (rows : List Nat) (s : State) :
    (fetchRows d rec tile share lo k rows s).sealed = s.sealed := by simp [fetchRows]

@[simp] theorem requestRows_sealed (id i lo fuel : Nat) (s : State) : (requestRows id i lo fuel s).sealed = s.sealed := by
  induction fuel generalizing s with
  | zero => rfl
  | succ fuel ih =>
    unfold requestRows
    split
    · rfl
    · split
      · split <;> simp [ih]
      · rfl

@[simp] theorem loadHot_sealed (d : Desc) (share tile : Nat) (s : State) :
    (loadHot d share tile s).sealed = s.sealed := by unfold loadHot; split <;> simp

@[simp] theorem beginShare_sealed (d : Desc) (i tile : Nat) (s : State) :
    (beginShare d i tile s).sealed = s.sealed := by unfold beginShare; split <;> simp

@[simp] theorem openShare_sealed (id i fuel : Nat) (s : State) : (openShare id i fuel s).sealed = s.sealed := by
  induction fuel generalizing s with
  | zero => rfl
  | succ fuel ih =>
    unfold openShare
    split
    · rfl
    · split <;> simp [ih]

@[simp] theorem openRounds_sealed (s : State) : (openRounds s).sealed = s.sealed := by
  unfold openRounds
  refine each_sealed _ (fun u t => each_sealed _ (fun id t => each_sealed _ (fun i t => ?_) t) t) s
  dsimp only
  split <;> simp

@[simp] theorem failBag_sealed (d : Desc) (tile st : Nat) (bag : Bag) (s : State) :
    (failBag d tile st bag s).sealed = s.sealed := by simp [failBag]

@[simp] theorem poolRow_sealed (id i lo row : Nat) (hot : Bool) (res : Nat × List Byte) (s : State) :
    (poolRow id i lo row hot res s).sealed = s.sealed := by
  unfold poolRow
  (repeat' split) <;> simp

@[simp] theorem emitRound_sealed (id i lo : Nat) (s : State) : (emitRound id i lo s).sealed = s.sealed := by
  unfold emitRound
  (repeat' split) <;> simp

@[simp] theorem poolHot_sealed (id i lo : Nat) (s : State) : (poolHot id i lo s).sealed = s.sealed := by
  unfold poolHot
  split
  · rfl
  split
  · split
    · refine each_sealed _ (fun row t => ?_) s
      split <;> simp
    · rfl
  · rfl

@[simp] theorem stepRound_sealed (id i lo : Nat) (s : State) : (stepRound id i lo s).sealed = s.sealed := by
  unfold stepRound
  dsimp only
  split
  · simp
  split
  · simp
  · split <;> simp

@[simp] theorem gatherRun_sealed (s : State) : (gatherRun s).sealed = s.sealed := by simp [gatherRun]

@[simp] theorem sendTail_sealed (d : Desc) (op tc dst phase : Nat) (data : List Byte) (what : SentFor) (g : Gate) (s : State) :
    (sendTail d op tc dst phase data what g s).sealed = s.sealed := by simp [sendTail]

@[simp] theorem batchStep_sealed (id : Nat) (s : State) : (batchStep id s).sealed = s.sealed := by
  unfold batchStep
  split
  · simp
  · split <;> simp

@[simp] theorem batchEnd_sealed (id : Nat) (g : Gate) (s : State) : (batchEnd id g s).sealed = s.sealed := by
  unfold batchEnd
  split
  · simp
  · split <;> simp

@[simp] theorem settleEng_sealed (s : State) : (settleEng s).sealed = s.sealed := by simp [settleEng]

@[simp] theorem gatherPostBody_sealed (c : CmdRec) (s : State) : (gatherPostBody c s).2.sealed = s.sealed := by
  unfold gatherPostBody
  dsimp only
  (repeat' split) <;> simp

@[simp] theorem batchIndex_sealed (lp tc : Nat) (p : Kmt) (d : Desc) (b : Batch) (i : Nat) (sh : ShareSt) (s : State) :
    (batchIndex lp tc p d b i sh s).sealed = s.sealed := by simp [batchIndex]; split <;> simp

@[simp] theorem gatherPacket_sealed (lp tc : Nat) (p : Kmt) (d : Desc) (s : State) :
    (gatherPacket lp tc p d s).sealed = s.sealed := by unfold gatherPacket; split <;> simp

@[simp] theorem gindex_sealed (lp tc : Nat) (p : Kmt) (s : State) : (gindex lp tc p s).sealed = s.sealed := by simp [gindex]

@[simp] theorem roundFlushDone_sealed (id tile : Nat) (s : State) : (roundFlushDone id tile s).sealed = s.sealed := by
  unfold roundFlushDone
  split
  · simp
  split
  · simp
  · split <;> simp

@[simp] theorem stepServe_sealed (id : Nat) (s : State) : (stepServe id s).sealed = s.sealed := by
  unfold stepServe
  dsimp only
  split
  · simp
  split
  · simp
  · split <;> simp

@[simp] theorem hotLoaded_sealed (tile table version row : Nat) (res : Nat × List Byte) (s : State) :
    (hotLoaded tile table version row res s).sealed = s.sealed := by simp [hotLoaded]

@[simp] theorem rowRead_sealed (id : Nat) (f : ReadFor) (res : Nat × List Byte) (s : State) : (rowRead id f res s).sealed = s.sealed := by
  unfold rowRead
  dsimp only
  (repeat' split) <;> simp

@[simp] theorem rowReadResponse_sealed (id : Nat) (s : State) : (rowReadResponse id s).sealed = s.sealed := by
  unfold rowReadResponse
  split
  · simp
  · split <;> simp

@[simp] theorem growreq_sealed (lp tc : Nat) (p : Kmt) (s : State) : (growreq lp tc p s).sealed = s.sealed := by simp [growreq]

@[simp] theorem rowsCame_sealed (d : Desc) (share : Nat) (lo : Option Nat) (rows : List Nat) (res : Nat → Nat × List Byte) (s : State) :
    (rowsCame d share lo rows res s).sealed = s.sealed := by unfold rowsCame; split <;> simp

@[simp] theorem growAnswered_sealed (p : Kmt) (e : ESent) (s : State) :
    (growAnswered p e s).sealed = s.sealed := by unfold growAnswered; split <;> simp

@[simp] theorem rowTmoExpiry_sealed (tag : Nat) (s : State) : (rowTmoExpiry tag s).sealed = s.sealed := by
  unfold rowTmoExpiry
  split
  · simp
  split
  · simp
  · split <;> simp

@[simp] theorem bagAnswered_sealed (p : Kmt) (e : ESent) (s : State) : (bagAnswered p e s).sealed = s.sealed := by
  unfold bagAnswered
  dsimp only
  split
  · simp
  · split <;> simp

@[simp] theorem batchExpire_sealed (d : Desc) (b : Batch) (s : State) : (batchExpire d b s).sealed = s.sealed := by simp [batchExpire]

/-! ### Filter programs -/

@[simp] theorem setRun_sealed (id : Nat) (f : Run → Run) (s : State) : (setRun id f s).sealed = s.sealed := by simp [setRun]

@[simp] theorem setFShare_sealed (id i : Nat) (f : FShare → FShare) (s : State) :
    (setFShare id i f s).sealed = s.sealed := by simp [setFShare]

@[simp] theorem takeSlots_sealed (d : Desc) (s : State) : (takeSlots d s).sealed = s.sealed := by
  refine each_sealed _ (fun sh t => ?_) s
  split <;> simp

@[simp] theorem filterPostBody_sealed (c : CmdRec) (s : State) : (filterPostBody c s).2.sealed = s.sealed := by
  unfold filterPostBody
  dsimp only
  (repeat' split) <;> simp

@[simp] theorem sendOutput_sealed (d : Desc) (tile tc phase contrib addr : Nat) (data : List Byte) (what : SentFor) (s : State) :
    (sendOutput d tile tc phase contrib addr data what s).sealed = s.sealed := by simp [sendOutput]

@[simp] theorem sendBlocks_sealed (id : Nat) (d : Desc) (tc i : Nat) (sh : ShareSt) (s : State) :
    (sendBlocks id d tc i sh s).sealed = s.sealed := by unfold sendBlocks; split <;> simp

@[simp] theorem runGo_sealed (id : Nat) (s : State) : (runGo id s).sealed = s.sealed := by
  unfold runGo
  split
  · rfl
  split
  · rfl
  split
  · rfl
  extract_lets tc shs s1 s2
  have h1 : s1.sealed = s.sealed := by simp [s1]
  have h2 : s2.sealed = s.sealed := by simp [s2, h1]
  split
  · exact h2
  extract_lets ended s3 want all ps s5 s4
  have h3 : s3.sealed = s.sealed := by simp [s3, h2]
  have h4 : s4.sealed = s.sealed := by simp [s4, s5, h3]
  split
  · exact h2
  split
  · exact h3
  split
  · exact h4
  split <;> simp [h4]

@[simp] theorem runStep_sealed (id : Nat) (s : State) : (runStep id s).sealed = s.sealed := by simp [runStep]

@[simp] theorem evalPacket_sealed (p : Kmt) (d : Desc) (i : Nat) (sh : ShareSt) (f : FShare) (recs : List (List Byte)) (tc : Nat) (s : State) :
    (evalPacket p d i sh f recs tc s).sealed = s.sealed := by simp [evalPacket]

@[simp] theorem runRecords_sealed (lp tc : Nat) (p : Kmt) (d : Desc) (r : Run) (i : Nat) (sh : ShareSt) (s : State) :
    (runRecords lp tc p d r i sh s).sealed = s.sealed := by
  unfold runRecords
  dsimp only
  split
  · simp
  · split <;> simp

@[simp] theorem runList_sealed (lp tc : Nat) (p : Kmt) (d : Desc) (r : Run) (s : State) :
    (runList lp tc p d r s).sealed = s.sealed := by simp [runList]

@[simp] theorem filterPacket_sealed (lp tc : Nat) (p : Kmt) (d : Desc) (s : State) : (filterPacket lp tc p d s).sealed = s.sealed := by
  unfold filterPacket
  split
  · rfl
  split
  · simp
  · split <;> simp

@[simp] theorem runEnd_sealed (id : Nat) (g : Gate) (s : State) : (runEnd id g s).sealed = s.sealed := by
  unfold runEnd
  split
  · simp
  · split <;> simp

@[simp] theorem outputAnswered_sealed (p : Kmt) (e : ESent) (s : State) : (outputAnswered p e s).sealed = s.sealed := by
  unfold outputAnswered
  dsimp only
  split
  · simp
  · split <;> simp

@[simp] theorem runExpire_sealed (d : Desc) (r : Run) (s : State) : (runExpire d r s).sealed = s.sealed := by simp [runExpire]

/-! ### Ownership -/

@[simp] theorem workAbortNotices_sealed (d : Desc) (s : State) : (workAbortNotices d s).sealed = s.sealed := by simp [workAbortNotices]
@[simp] theorem abortOwned_sealed (d : Desc) (s : State) : (abortOwned d s).sealed = s.sealed := by simp [abortOwned]
@[simp] theorem giveUp_sealed (d : Desc) (s : State) : (giveUp d s).sealed = s.sealed := by simp [giveUp]

@[simp] theorem tellOwners_sealed (d : Desc) (dst : Nat) (rec : List Byte) (s : State) :
    (tellOwners d dst rec s).sealed = s.sealed := by simp [tellOwners]

@[simp] theorem endWork_sealed (k coll : Nat) (s : State) : (endWork k coll s).sealed = s.sealed := by
  unfold endWork
  extract_lets rs e s1 s2 s3
  have h2 : s2.sealed = s.sealed := by
    refine (each_sealed _ (fun r t => ?_) s1).trans (count_sealed _ s)
    split
    · split <;> simp
    · simp
  have h3 : s3.sealed = s2.sealed := by
    simp only [s3]
    split <;> simp
  simp [h3, h2]

@[simp] theorem startWatch_sealed (r : OwnRec) (epoch : Nat) (s : State) : (startWatch r epoch s).sealed = s.sealed := by simp [startWatch]

@[simp] theorem ownershipWatchExpiry_sealed (id : Nat) (s : State) : (ownershipWatchExpiry id s).sealed = s.sealed := by
  unfold ownershipWatchExpiry
  split
  · simp
  · split <;> simp

@[simp] theorem placeCopy_sealed (k node : Nat) (b : List Byte) (s : State) :
    (placeCopy k node b s).sealed = s.sealed := by simp [placeCopy]

@[simp] theorem updateCopy_sealed (k node : Nat) (b : List Byte) (s : State) :
    (updateCopy k node b s).sealed = s.sealed := by simp only [updateCopy]; split <;> simp

@[simp] theorem ownLogged_sealed (k node : Nat) (body : List Byte) (s : State) :
    (ownLogged k node body s).sealed = s.sealed := by simp [ownLogged]

@[simp] theorem workResends_sealed (d : Desc) (s : State) : (workResends d s).sealed = s.sealed := by simp [workResends]
@[simp] theorem freeSums_sealed (id : Nat) (s : State) : (freeSums id s).sealed = s.sealed := by simp [freeSums]

@[simp] theorem resumeWork_sealed (id : Nat) (s : State) : (resumeWork id s).sealed = s.sealed := by
  unfold resumeWork
  dsimp only
  (repeat' split) <;> simp

@[simp] theorem claimCopy_sealed (d : Desc) (epoch prev : Nat) (s : State) :
    (claimCopy d epoch prev s).sealed = s.sealed := by simp [claimCopy]

@[simp] theorem startHandover_sealed (d : Desc) (s : State) : (startHandover d s).sealed = s.sealed := by simp [startHandover]
@[simp] theorem claimLost_sealed (ep : Nat) (s : State) : (claimLost ep s).sealed = s.sealed := by simp [claimLost]

@[simp] theorem readdress_sealed (k coll : Nat) (s : State) : (readdress k coll s).sealed = s.sealed := by
  refine each_sealed _ (fun e t => ?_) s
  split
  · rfl
  split
  · rfl
  dsimp only
  split
  · rfl
  · simp

@[simp] theorem meetOwner_sealed (r : OwnRec) (offer : Bool) (src : Nat) (s : State) :
    (meetOwner r offer src s).sealed = s.sealed := by unfold meetOwner; split <;> simp

@[simp] theorem ownPacket_sealed (act : OwnRec → State → State) (lp tc : Nat) (p : Kmt) (s : State) (hact : ∀ x u, (act x u).sealed = u.sealed) :
    (ownPacket act lp tc p s).sealed = s.sealed := by simp [ownPacket, hact]

@[simp] theorem offered_sealed (src : Nat) (r : OwnRec) (s : State) :
    (offered src r s).sealed = s.sealed := by unfold offered; split <;> simp

@[simp] theorem accepted_sealed (src : Nat) (r : OwnRec) (s : State) : (accepted src r s).sealed = s.sealed := by simp [accepted]
@[simp] theorem resumeFenced_sealed (s : State) : (resumeFenced s).sealed = s.sealed := by simp [resumeFenced]

/-! ### Commands of engine units -/

@[simp] theorem workPacket_sealed (lp tc : Nat) (p : Kmt) (d : Desc) (s : State) :
    (workPacket lp tc p d s).sealed = s.sealed := by unfold workPacket; split <;> simp

@[simp] theorem workStep_sealed (id : Nat) (s : State) : (workStep id s).sealed = s.sealed := by simp [workStep]

@[simp] theorem descExpire_sealed (d : Desc) (s : State) : (descExpire d s).sealed = s.sealed := by
  unfold descExpire
  split
  · simp
  split
  · simp
  · split <;> simp

@[simp] theorem engDeadlineCheck_sealed (u : Nat) (s : State) : (engDeadlineCheck u s).sealed = s.sealed := by simp [engDeadlineCheck]
@[simp] theorem resetEngUnit_sealed (u : Nat) (s : State) : (resetEngUnit u s).sealed = s.sealed := by simp [resetEngUnit]
@[simp] theorem sramUe_sealed (tile : Nat) (s : State) : (sramUe tile s).sealed = s.sealed := by simp [sramUe]

@[simp] theorem engDrainTimeout_sealed (u : Nat) (s : State) :
    (engDrainTimeout u s).sealed = s.sealed := by unfold engDrainTimeout; split <;> simp

@[simp] theorem epartAnswered_sealed (p : Kmt) (e : ESent) (s : State) :
    (epartAnswered p e s).sealed = s.sealed := by unfold epartAnswered; split <;> simp

/-! ### Haul engines -/

@[simp] theorem setHaul_sealed (id : Nat) (f : HDesc → HDesc) (s : State) : (setHaul id f s).sealed = s.sealed := by simp [setHaul]

@[simp] theorem setHShare_sealed (id i : Nat) (f : HShare → HShare) (s : State) :
    (setHShare id i f s).sealed = s.sealed := by simp [setHShare]

@[simp] theorem hiddenCount_sealed (k engine off n : Nat) (s : State) :
    (hiddenCount k engine off n s).sealed = s.sealed := by simp [hiddenCount]

@[simp] theorem haulAttn_sealed (d : HDesc) (counter : Nat) (s : State) : (haulAttn d counter s).sealed = s.sealed := by simp [haulAttn]
@[simp] theorem dropItems_sealed (id : Nat) (s : State) : (dropItems id s).sealed = s.sealed := by simp [dropItems]

@[simp] theorem failHaul_sealed (id status : Nat) (engine : Option Nat) (s : State) :
    (failHaul id status engine s).sealed = s.sealed := by unfold failHaul; split <;> simp

@[simp] theorem checkFail_sealed (id status engine : Nat) (s : State) :
    (checkFail id status engine s).sealed = s.sealed := by unfold checkFail; split <;> simp

@[simp] theorem finishHaul_sealed (d : HDesc) (s : State) : (finishHaul d s).sealed = s.sealed := by
  unfold finishHaul
  split
  · simp
  · split <;> simp

@[simp] theorem stopHaul_sealed (status : Nat) (d : HDesc) (s : State) : (stopHaul status d s).sealed = s.sealed := by
  unfold stopHaul
  dsimp only
  split
  · simp
  · split <;> simp

@[simp] theorem stopHaulUnit_sealed (u status : Nat) (s : State) : (stopHaulUnit u status s).sealed = s.sealed := by simp [stopHaulUnit]
@[simp] theorem outCount_sealed (d : HDesc) (engine n : Nat) (s : State) : (outCount d engine n s).sealed = s.sealed := by simp [outCount]

@[simp] theorem sendPut_sealed (d : HDesc) (share engine addr : Nat) (data : List Byte) (blks : List HBlk) (elems : Nat) (isDone : Bool) (s : State) :
    (sendPut d share engine addr data blks elems isDone s).sealed = s.sealed := by simp [sendPut]

@[simp] theorem sendPages_sealed (id i fuel : Nat) (s : State) : (sendPages id i fuel s).sealed = s.sealed := by
  induction fuel generalizing s with
  | zero => rfl
  | succ fuel ih =>
    unfold sendPages
    split
    · rfl
    · split <;> simp [ih]

@[simp] theorem issueSegs_sealed (k space : Nat) (segs : List (Nat × Nat)) (crest : Nat) (s : State) :
    (issueSegs k space segs crest s).2.sealed = s.sealed := by simp [issueSegs]

@[simp] theorem readBlock_sealed (d : HDesc) (i : Nat) (sh : HShare) (k : Nat) (s : State) :
    (readBlock d i sh k s).sealed = s.sealed := by unfold readBlock; split <;> simp

@[simp] theorem readChunk_sealed (d : HDesc) (engine k : Nat) (what : ReadFor) (s : State) :
    (readChunk d engine k what s).sealed = s.sealed := by simp [readChunk]

@[simp] theorem readAhead_sealed (h fuel : Nat) (s : State) : (readAhead h fuel s).sealed = s.sealed := by
  induction fuel generalizing s with
  | zero => rfl
  | succ fuel ih =>
    unfold readAhead
    split
    · rfl
    · simp [ih]

@[simp] theorem evictFor_sealed (h n : Nat) (keep : List (Nat × Nat × Nat)) (fuel : Nat) (s : State) :
    (evictFor h n keep fuel s).sealed = s.sealed := by
  induction fuel generalizing s with
  | zero => rfl
  | succ fuel ih =>
    simp only [evictFor]
    split
    · rfl
    · split <;> simp [ih]

@[simp] theorem startLoad_sealed (d : HDesc) (i : Nat) (sh : HShare) (img : List Byte) (gen idx : Nat) (s : State) :
    (startLoad d i sh img gen idx s).sealed = s.sealed := by simp [startLoad]

@[simp] theorem loadBooks_sealed (d : HDesc) (i : Nat) (sh : HShare) (is : List Nat) (s : State) :
    (loadBooks d i sh is s).1.sealed = s.sealed := by unfold loadBooks; split <;> simp

@[simp] theorem askImage_sealed (id i : Nat) (s : State) : (askImage id i s).sealed = s.sealed := by
  unfold askImage
  dsimp only
  (repeat' split) <;> simp

@[simp] theorem copyBlock_sealed (d : HDesc) (engine k : Nat) (b : List Byte) (s : State) :
    (copyBlock d engine k b s).sealed = s.sealed := by
  refine foldl_sealed _ (fun t g => ?_) s
  dsimp only
  split
  · simp
  split
  · simp
  split
  · next h => simpa using memDirect_sealed h
  · simp

@[simp] theorem missBooks_sealed (d : HDesc) (i : Nat) (sh : HShare) (is : List Nat) (s : State) :
    (missBooks d i sh is s).sealed = s.sealed := by simp [missBooks]

@[simp] theorem endStall_sealed (d : HDesc) (i : Nat) (sh : HShare) (s : State) :
    (endStall d i sh s).sealed = s.sealed := by unfold endStall; split <;> simp

@[simp] theorem expandInto_sealed (d : HDesc) (i : Nat) (sh : HShare) (img : List Byte × Nat) (b : List Byte) (gen : Nat) (last : Bool) (s : State) :
    (expandInto d i sh img b gen last s).sealed = s.sealed := by simp [expandInto]

@[simp] theorem stepHShare_sealed (id i : Nat) (s : State) : (stepHShare id i s).sealed = s.sealed := by
  unfold stepHShare
  dsimp only
  (repeat' split) <;> simp

@[simp] theorem haulRound_sealed (s : State) : (haulRound s).sealed = s.sealed := by simp [haulRound]

@[simp] theorem haulRounds_sealed (n : Nat) (s : State) : (haulRounds n s).sealed = s.sealed := by
  induction n generalizing s with
  | zero => rfl
  | succ n ih => simp [haulRounds, ih]

@[simp] theorem endHaul_sealed (id : Nat) (s : State) : (endHaul id s).sealed = s.sealed := by unfold endHaul; split <;> simp
@[simp] theorem settleHaul_sealed (s : State) : (settleHaul s).sealed = s.sealed := by simp [settleHaul]
@[simp] theorem acceptHaul_sealed (d : HDesc) (s : State) : (acceptHaul d s).sealed = s.sealed := by simp [acceptHaul]
@[simp] theorem haulPostBody_sealed (c : CmdRec) (s : State) : (haulPostBody c s).2.sealed = s.sealed := by simp [haulPostBody]

@[simp] theorem blockCame_sealed (d : HDesc) (i : Nat) (sh : HShare) (k : Nat) (res : Nat × List Byte) (s : State) :
    (blockCame d i sh k res s).sealed = s.sealed := by
  unfold blockCame
  dsimp only
  split
  · simp
  · split <;> simp

@[simp] theorem imageCame_sealed (d : HDesc) (i : Nat) (sh : HShare) (res : Nat × List Byte) (s : State) :
    (imageCame d i sh res s).sealed = s.sealed := by
  unfold imageCame
  dsimp only
  split
  · simp
  · split <;> simp

@[simp] theorem chunkCame_sealed (d : HDesc) (l : HLoad) (k : Nat) (res : Nat × List Byte) (s : State) :
    (chunkCame d l k res s).sealed = s.sealed := by
  unfold chunkCame
  dsimp only
  split
  · simp
  · split <;> simp

@[simp] theorem resendPut_sealed (u : HPut) (s : State) : (resendPut u s).sealed = s.sealed := by unfold resendPut; split <;> simp

@[simp] theorem redoCame_sealed (tag k : Nat) (again : Bool) (res : Nat × List Byte) (s : State) :
    (redoCame tag k again res s).sealed = s.sealed := by
  unfold redoCame
  dsimp only
  (repeat' split) <;> simp

@[simp] theorem copyEnded_sealed (id desc bytes : Nat) (s : State) : (copyEnded id desc bytes s).sealed = s.sealed := by
  unfold copyEnded
  dsimp only
  split
  · simp
  · split <;> simp

@[simp] theorem settleCopies_sealed (s : State) : (settleCopies s).sealed = s.sealed := by
  refine each_sealed _ (fun p t => ?_) s
  split <;> simp

@[simp] theorem blockReadResponse_sealed (id : Nat) (s : State) : (blockReadResponse id s).sealed = s.sealed := by
  unfold blockReadResponse
  (repeat' split) <;> simp

@[simp] theorem codebookLoadDone_sealed (id : Nat) (s : State) :
    (codebookLoadDone id s).sealed = s.sealed := by unfold codebookLoadDone; split <;> simp

@[simp] theorem offPut_sealed (tag ep : Nat) (s : State) : (offPut tag ep s).sealed = s.sealed := by unfold offPut; split <;> simp
@[simp] theorem loseDest_sealed (id ep : Nat) (s : State) : (loseDest id ep s).sealed = s.sealed := by unfold loseDest; split <;> simp
@[simp] theorem putAnswered_sealed (p : Kmt) (s : State) : (putAnswered p s).sealed = s.sealed := by unfold putAnswered; split <;> simp

@[simp] theorem putTmoExpiry_sealed (tag : Nat) (s : State) : (putTmoExpiry tag s).sealed = s.sealed := by
  unfold putTmoExpiry
  split
  · simp
  · split <;> simp

@[simp] theorem haulExpire_sealed (d : HDesc) (s : State) : (haulExpire d s).sealed = s.sealed := by simp [haulExpire]
@[simp] theorem haulDeadlineCheck_sealed (u : Nat) (s : State) : (haulDeadlineCheck u s).sealed = s.sealed := by simp [haulDeadlineCheck]
@[simp] theorem retireGen_sealed (k g : Nat) (s : State) : (retireGen k g s).sealed = s.sealed := by simp [retireGen]
@[simp] theorem resetHaulUnit_sealed (u : Nat) (s : State) : (resetHaulUnit u s).sealed = s.sealed := by simp [resetHaulUnit]
@[simp] theorem haulUe_sealed (h : Nat) (s : State) : (haulUe h s).sealed = s.sealed := by simp [haulUe]

@[simp] theorem haulDrainTimeout_sealed (u : Nat) (s : State) :
    (haulDrainTimeout u s).sealed = s.sealed := by unfold haulDrainTimeout; split <;> simp

/-! ### Route Cards -/

@[simp] theorem setCard_sealed (n : Nat) (f : Card → Card) (s : State) : (setCard n f s).sealed = s.sealed := by simp [setCard]
@[simp] theorem rcCount_sealed (k n off m : Nat) (s : State) : (rcCount k n off m s).sealed = s.sealed := by simp [rcCount]
@[simp] theorem readFill_sealed (n : Nat) (c : Card) (f : CFill) (s : State) : (readFill n c f s).sealed = s.sealed := by simp [readFill]
@[simp] theorem startFill_sealed (n : Nat) (s : State) : (startFill n s).sealed = s.sealed := by unfold startFill; split <;> simp
@[simp] theorem endFill_sealed (n : Nat) (f : CFill) (s : State) : (endFill n f s).sealed = s.sealed := by simp [endFill]
@[simp] theorem prefetch_sealed (n : Nat) (s : State) : (prefetch n s).sealed = s.sealed := by unfold prefetch; split <;> simp

@[simp] theorem writeWindow_sealed (c : Card) (crest place : Nat) (b : List Byte) (s : State) :
    (writeWindow c crest place b s).sealed = s.sealed := by
  refine foldl_snd_sealed _ (fun acc g => ?_) _
  dsimp only
  split <;> simp

@[simp] theorem setAcc_sealed (n p : Nat) (f : PassAcc → PassAcc) (s : State) : (setAcc n p f s).sealed = s.sealed := by simp [setAcc]

@[simp] theorem fillReadResponse_sealed (id : Nat) (s : State) : (fillReadResponse id s).sealed = s.sealed := by
  unfold fillReadResponse
  dsimp only
  (repeat' split) <;> simp

@[simp] theorem unfillWord_sealed (w : Nat) (s : State) : (unfillWord w s).sealed = s.sealed := by simp [unfillWord]
@[simp] theorem openHeld_sealed (n : Nat) (s : State) : (openHeld n s).sealed = s.sealed := by unfold openHeld; split <;> simp

@[simp] theorem evalGates_sealed (n : Nat) (s : State) : (evalGates n s).sealed = s.sealed := by
  unfold evalGates
  split
  · simp
  · split <;> simp

@[simp] theorem gateOpenAt_sealed (a n : Nat) (s : State) : (gateOpenAt a n s).sealed = s.sealed := by
  refine each_sealed _ (fun p t => ?_) s
  split <;> simp

@[simp] theorem passRecord_sealed (n p status : Nat) (s : State) :
    (passRecord n p status s).sealed = s.sealed := by unfold passRecord; split <;> simp

@[simp] theorem markPass_sealed (n p status : Nat) (s : State) : (markPass n p status s).sealed = s.sealed := by simp [markPass]
@[simp] theorem stopCard_sealed (n status : Nat) (s : State) : (stopCard n status s).sealed = s.sealed := by unfold stopCard; split <;> simp
@[simp] theorem layerEnded_sealed (n x : Nat) (s : State) : (layerEnded n x s).sealed = s.sealed := by simp [layerEnded]
@[simp] theorem stepEnded_sealed (e : StepEnd) (s : State) : (stepEnded e s).sealed = s.sealed := by unfold stepEnded; split <;> simp
@[simp] theorem freeCard_sealed (n : Nat) (s : State) : (freeCard n s).sealed = s.sealed := by unfold freeCard; split <;> simp

@[simp] theorem stepCard_sealed (n : Nat) (s : State) : (stepCard n s).sealed = s.sealed := by
  unfold stepCard
  split
  · simp
  · split <;> simp

@[simp] theorem settleCards_sealed (s : State) : (settleCards s).sealed = s.sealed := by simp [settleCards]

@[simp] theorem makeCopy_sealed (k : Nat) (b : List Byte) (n : Nat) (s : State) : (makeCopy k b n s).2.sealed = s.sealed := by
  induction n generalizing s with
  | zero => rfl
  | succ n ih =>
    simp only [makeCopy]
    split
    · exact ih s
    · next h => simpa [ih] using allocRun_sealed h

@[simp] theorem mapWindow_sealed (n k : Nat) (b : List Byte) (s : State) : (mapWindow n k b s).sealed = s.sealed := by
  refine foldl_sealed _ (fun t p => ?_) s
  split
  · next h _ => simpa using allocRun_sealed h
  · rfl

@[simp] theorem pendHeld_sealed (c : CmdRec) (what : LongFor) (s : State) : (pendHeld c what s).sealed = s.sealed := by simp [pendHeld]

@[simp] theorem loadCard_sealed (c : CmdRec) (b : List Byte) (s : State) : (loadCard c b s).sealed = s.sealed := by
  unfold loadCard
  extract_lets n k pages per
  split
  · simp
  split
  · simp
  split
  · simp
  -- the pages of the copy stay folded: their number is a quotient by a large numeral
  have h := makeCopy_sealed k b pages s
  generalize makeCopy k b pages s = copied at h ⊢
  obtain ⟨copy, t⟩ := copied
  rw [stepCard_sealed, startFill_sealed, pendHeld_sealed, sealed_with, mapWindow_sealed]
  exact h

@[simp] theorem routeLoadBody_sealed (c : CmdRec) (s : State) : (routeLoadBody c s).2.sealed = s.sealed := by simp [routeLoadBody]

@[simp] theorem cardRead_sealed (id : Nat) (c : CmdRec) (whole : Bool) (s : State) :
    (cardRead id c whole s).sealed = s.sealed := by unfold cardRead; split <;> simp

@[simp] theorem settleCardReads_sealed (n : Nat) (s : State) : (settleCardReads n s).sealed = s.sealed := by
  induction n generalizing s with
  | zero => rfl
  | succ n ih =>
    unfold settleCardReads
    split
    · rfl
    · simp [ih]

@[simp] theorem routeStartBody_sealed (c : CmdRec) (s : State) : (routeStartBody c s).2.sealed = s.sealed := by
  unfold routeStartBody
  dsimp only
  (repeat' split) <;> simp

@[simp] theorem routeStopBody_sealed (c : CmdRec) (s : State) :
    (routeStopBody c s).2.sealed = s.sealed := by simp only [routeStopBody]; split <;> simp

@[simp] theorem routeUnloadBody_sealed (c : CmdRec) (s : State) :
    (routeUnloadBody c s).2.sealed = s.sealed := by simp only [routeUnloadBody]; split <;> simp

@[simp] theorem afterRoute_sealed (n : Nat) (s : State) : (afterRoute n s).sealed = s.sealed := by simp only [afterRoute]; split <;> simp
@[simp] theorem postStep_sealed (n x k : Nat) (s : State) : (postStep n x k s).sealed = s.sealed := by unfold postStep; split <;> simp
@[simp] theorem layerArm_sealed (n : Nat) (s : State) : (layerArm n s).sealed = s.sealed := by unfold layerArm; split <;> simp

@[simp] theorem stepRepost_sealed (n k : Nat) (s : State) : (stepRepost n k s).sealed = s.sealed := by
  unfold stepRepost
  split
  · simp
  · split <;> simp

@[simp] theorem usageTick_sealed (s : State) : (usageTick s).sealed = s.sealed := by simp [usageTick]

@[simp] theorem messageAnswer_sealed (lp tc : Nat) (p : Kmt) (s : State) :
    (messageAnswer lp tc p s).sealed = s.sealed := by simp [messageAnswer]

@[simp] theorem haulResetDone_sealed (u : Nat) (clean : Bool) (s : State) :
    (haulResetDone u clean s).sealed = s.sealed := by simp [haulResetDone]

/-! ### The register window -/

@[simp] theorem unlatch_sealed (path : RegPath) (a : Nat) (s : State) : (unlatch path a s).sealed = s.sealed := by simp [unlatch]

@[simp] theorem readWord_sealed (path : RegPath) (full : Bool) (a : Nat) (s : State) : (readWord path full a s).2.sealed = s.sealed := by
  unfold readWord
  (repeat' split) <;> simp

@[simp] theorem readWords_sealed (path : RegPath) (full : Bool) (n a : Nat) (s : State) :
    (readWords path full n a s).2.sealed = s.sealed := by
  induction n generalizing a s with
  | zero => rfl
  | succ n ih => simp [readWords, ih]

@[simp] theorem setPortCfg_sealed (p v : Nat) (s : State) : (setPortCfg p v s).sealed = s.sealed := by simp [setPortCfg]
@[simp] theorem startReadout_sealed (addr : Nat) (s : State) : (startReadout addr s).sealed = s.sealed := by simp [startReadout]
@[simp] theorem writeQuota_sealed (k o v : Nat) (s : State) : (writeQuota k o v s).2.sealed = s.sealed := by simp [writeQuota]
@[simp] theorem writeRstCtl_sealed (v : Nat) (s : State) : (writeRstCtl v s).2.sealed = s.sealed := by simp [writeRstCtl]
@[simp] theorem rejectCfg_sealed (p : Nat) (s : State) : (rejectCfg p s).sealed = s.sealed := by simp [rejectCfg]
@[simp] theorem pinAtStart_sealed (a v : Nat) (s : State) : (pinAtStart a v s).sealed = s.sealed := by simp [pinAtStart]
@[simp] theorem writePlain_sealed (a v : Nat) (s : State) : (writePlain a v s).2.sealed = s.sealed := by simp [writePlain]

@[simp] theorem writeWide_sealed (path : RegPath) (a v : Nat) (high : Bool) (s : State) :
    (writeWide path a v high s).2.sealed = s.sealed := by simp [writeWide]

/-! ### Resets, boot and JTAG -/

@[simp] theorem pwrOkRise_sealed (s : State) : (pwrOkRise s).sealed = s.sealed := by simp [pwrOkRise]

@[simp] theorem internalResetEnd_sealed (smbAddr : Nat) (s : State) :
    (internalResetEnd smbAddr s).sealed = s.sealed := by simp [internalResetEnd]

@[simp] theorem toStage_sealed (n : Nat) (s : State) : (toStage n s).sealed = s.sealed := by simp [toStage]
@[simp] theorem enterRecovery_sealed (err : Nat) (s : State) : (enterRecovery err s).sealed = s.sealed := by simp [enterRecovery]
@[simp] theorem pufDone_sealed (r : BootResult) (s : State) : (pufDone r s).sealed = s.sealed := by unfold pufDone; split <;> simp

@[simp] theorem imageDone_sealed (r : BootResult) (s : State) : (imageDone r s).sealed = s.sealed := by
  unfold imageDone
  (repeat' split) <;> simp

@[simp] theorem enterBaseCamp_sealed (s : State) : (enterBaseCamp s).sealed = s.sealed := by simp [enterBaseCamp]

@[simp] theorem crestDone_sealed (r : BootResult) (s : State) : (crestDone r s).sealed = s.sealed := by
  unfold crestDone
  split
  · simp
  split
  · simp
  · split <;> simp

@[simp] theorem fullEntry_sealed (s : State) : (fullEntry s).sealed = s.sealed := by simp [fullEntry]
@[simp] theorem mgmtLinkTry_sealed (linked : Bool) (s : State) : (mgmtLinkTry linked s).sealed = s.sealed := by simp [mgmtLinkTry]

@[simp] theorem refclkCheck_sealed (mgt core : Bool) (sd : Nat) (s : State) :
    (refclkCheck mgt core sd s).sealed = s.sealed := by simp [refclkCheck]

@[simp] theorem hardFault_sealed (cause : Nat) (s : State) : (hardFault cause s).sealed = s.sealed := by simp [hardFault]

@[simp] theorem crestPllLockLoss_sealed (crest : Nat) (s : State) :
    (crestPllLockLoss crest s).sealed = s.sealed := by simp [crestPllLockLoss]

@[simp] theorem hutWatchdog_sealed (s : State) : (hutWatchdog s).sealed = s.sealed := by simp [hutWatchdog]
@[simp] theorem controlCoresRestart_sealed (s : State) : (controlCoresRestart s).sealed = s.sealed := by simp [controlCoresRestart]

@[simp] theorem thermSample_sealed (dies : List Int) (sts : List Nat) (s : State) :
    (thermSample dies sts s).sealed = s.sealed := by simp [thermSample]

@[simp] theorem pwrEstTick_sealed (est : List Nat) (s : State) : (pwrEstTick est s).sealed = s.sealed := by simp [pwrEstTick]

@[simp] theorem ptpEventMessage_sealed (lp : Nat) (m : PtpMsg) (s : State) :
    (ptpEventMessage lp m s).sealed = s.sealed := by simp [ptpEventMessage]

@[simp] theorem holdover_sealed (s : State) : (holdover s).sealed = s.sealed := by simp [holdover]
@[simp] theorem frzNFall_sealed (s : State) : (frzNFall s).sealed = s.sealed := by simp [frzNFall]

@[simp] theorem readout_sealed (addr raw : Nat) (s : State) :
    (readout addr raw s).2.sealed = s.sealed := by simp only [readout]; split <;> simp

@[simp] theorem readoutDone_sealed (raw : Nat) (s : State) : (readoutDone raw s).sealed = s.sealed := by
  unfold readoutDone
  split
  · simp
  split
  · simp
  · split <;> simp

@[simp] theorem idcode_sealed (s : State) : (idcode s).sealed = s.sealed := by simp [idcode]
@[simp] theorem bypass_sealed (s : State) : (bypass s).sealed = s.sealed := by simp [bypass]
@[simp] theorem tapReset_sealed (s : State) : (tapReset s).sealed = s.sealed := by simp [tapReset]
@[simp] theorem boundaryScan_sealed (ir v : Nat) (s : State) : (boundaryScan ir v s).sealed = s.sealed := by simp [boundaryScan]
@[simp] theorem frzAccess_sealed (addr : Nat) (s : State) : (frzAccess addr s).sealed = s.sealed := by simp [frzAccess]

@[simp] theorem smbusBlockWrite_sealed (addr7 command : Nat) (data : List Byte) (pecOk : Bool) (s : State) :
    (smbusBlockWrite addr7 command data pecOk s).sealed = s.sealed := by simp [smbusBlockWrite]

@[simp] theorem smbusBlockRead_sealed (addr7 command : Nat) (pecOk : Bool) (s : State) :
    (smbusBlockRead addr7 command pecOk s).sealed = s.sealed := by simp [smbusBlockRead]

/-! ### Compositions -/

@[simp] theorem stopKey_sealed (key status : Nat) (s : State) : (stopKey key status s).sealed = s.sealed := by simp [stopKey]
@[simp] theorem idleUnits_sealed (k status : Nat) (s : State) : (idleUnits k status s).sealed = s.sealed := by simp [idleUnits]
@[simp] theorem stopCapture_sealed (s : State) : (stopCapture s).sealed = s.sealed := by simp [stopCapture]
@[simp] theorem dropCapture_sealed (s : State) : (dropCapture s).sealed = s.sealed := by unfold dropCapture; split <;> simp
@[simp] theorem dropRing_sealed (r : Ring) (s : State) : (dropRing r s).sealed = s.sealed := by simp [dropRing]
@[simp] theorem zeroWords_sealed (a n : Nat) (s : State) : (zeroWords a n s).sealed = s.sealed := by simp [zeroWords]
@[simp] theorem unbind_sealed (k : Nat) (s : State) : (unbind k s).sealed = s.sealed := by simp [unbind]
@[simp] theorem discardWaiting_sealed (k : Nat) (s : State) : (discardWaiting k s).sealed = s.sealed := by simp [discardWaiting]
@[simp] theorem dropStarted_sealed (k : Nat) (s : State) : (dropStarted k s).sealed = s.sealed := by simp [dropStarted]
@[simp] theorem endLongs_sealed (k status : Nat) (s : State) : (endLongs k status s).sealed = s.sealed := by simp [endLongs]
@[simp] theorem tenantCreateBody_sealed (c : CmdRec) (s : State) : (tenantCreateBody c s).2.sealed = s.sealed := by simp [tenantCreateBody]
@[simp] theorem undoCard_sealed (n : Nat) (s : State) : (undoCard n s).sealed = s.sealed := by simp [undoCard]
@[simp] theorem tenantResetBody_sealed (c : CmdRec) (s : State) : (tenantResetBody c s).2.sealed = s.sealed := by simp [tenantResetBody]
@[simp] theorem releaseObjects_sealed (k : Nat) (s : State) : (releaseObjects k s).sealed = s.sealed := by simp [releaseObjects]
@[simp] theorem tenantRemoveBody_sealed (c : CmdRec) (s : State) : (tenantRemoveBody c s).2.sealed = s.sealed := by simp [tenantRemoveBody]
@[simp] theorem settleTenant_sealed (k : Nat) (s : State) : (settleTenant k s).sealed = s.sealed := by unfold settleTenant; split <;> simp
@[simp] theorem settleTenants_sealed (s : State) : (settleTenants s).sealed = s.sealed := by simp [settleTenants]

@[simp] theorem tenantScrubDone_sealed (k : Nat) (s : State) : (tenantScrubDone k s).sealed = s.sealed := by
  unfold tenantScrubDone
  dsimp only
  split
  · simp
  · split <;> simp

@[simp] theorem roleDone_sealed (k : UKind) (unit : Nat) (s : State) : (roleDone k unit s).sealed = s.sealed := by simp [roleDone]

@[simp] theorem roleDrainTimeout_sealed (k : UKind) (unit : Nat) (s : State) :
    (roleDrainTimeout k unit s).sealed = s.sealed := by unfold roleDrainTimeout; split <;> simp

@[simp] theorem usageReadBody_sealed (c : CmdRec) (s : State) : (usageReadBody c s).2.sealed = s.sealed := by simp [usageReadBody]

/-! ### Bodies of commands -/

@[simp] theorem settleRegions_sealed (s : State) : (settleRegions s).sealed = s.sealed := by simp [settleRegions]
@[simp] theorem settlePromote_sealed (s : State) : (settlePromote s).sealed = s.sealed := by simp [settlePromote]
@[simp] theorem settleAll_sealed (s : State) : (settleAll s).sealed = s.sealed := by simp [settleAll]

@[simp] theorem spaceCreate_sealed (sh : Bool) (c : CmdRec) (s : State) :
    (spaceCreate sh c s).2.sealed = s.sealed := by simp only [spaceCreate]; split <;> simp

@[simp] theorem spaceDestroy_sealed (sh : Bool) (c : CmdRec) (s : State) :
    (spaceDestroy sh c s).2.sealed = s.sealed := by simp [spaceDestroy]

@[simp] theorem extentMap_sealed (sh : Bool) (c : CmdRec) (s : State) : (extentMap sh c s).2.sealed = s.sealed := by
  unfold extentMap
  extract_lets x hbm size off base n tray r t
  split
  · rfl
  split
  · rfl
  split
  · rfl
  split
  · simp
  split
  · split
    · simp [t]
    · next h => simpa [t] using allocRun_sealed h
  · simp [t]

@[simp] theorem regionCreate_sealed (sh : Bool) (c : CmdRec) (s : State) : (regionCreate sh c s).2.sealed = s.sealed := by
  unfold regionCreate
  dsimp only
  split
  · rfl
  split
  · rfl
  split
  · simp
  split
  · simp
  split
  · simp
  · next h => simpa using allocRun_sealed h

@[simp] theorem regionRemove_sealed (c : CmdRec) (s : State) : (regionRemove c s).2.sealed = s.sealed := by
  unfold regionRemove
  dsimp only
  split
  · simp
  · split <;> simp

@[simp] theorem ringCreate_sealed (c : CmdRec) (s : State) : (ringCreate c s).2.sealed = s.sealed := by
  unfold ringCreate
  dsimp only
  split
  · rfl
  split
  · rfl
  split
  · simp
  split
  · simp
  · next h => simpa using allocRun_sealed h

@[simp] theorem ringDestroy_sealed (c : CmdRec) (s : State) : (ringDestroy c s).2.sealed = s.sealed := by unfold ringDestroy; split <;> simp

@[simp] theorem extentRevoke_sealed (c : CmdRec) (s : State) : (extentRevoke c s).2.sealed = s.sealed := by
  unfold extentRevoke
  dsimp only
  split
  · simp
  · split <;> simp

@[simp] theorem jobCreate_sealed (sh : Bool) (c : CmdRec) (s : State) : (jobCreate sh c s).2.sealed = s.sealed := by simp [jobCreate]

@[simp] theorem jobDestroy_sealed (sh : Bool) (c : CmdRec) (s : State) :
    (jobDestroy sh c s).2.sealed = s.sealed := by simp only [jobDestroy]; split <;> simp

@[simp] theorem regionPublish_sealed (c : CmdRec) (s : State) : (regionPublish c s).2.sealed = s.sealed := by
  unfold regionPublish
  dsimp only
  split
  · simp
  · split <;> simp

@[simp] theorem mirroredBody_sealed (c : CmdRec) (s : State) : (mirroredBody c s).2.sealed = s.sealed := by
  unfold mirroredBody
  split
  · split <;> simp
  all_goals simp

@[simp] theorem quiesceBody_sealed (c : CmdRec) (s : State) : (quiesceBody c s).2.sealed = s.sealed := by unfold quiesceBody; split <;> simp

@[simp] theorem quiesceDrainExpiry_sealed (s : State) :
    (quiesceDrainExpiry s).sealed = s.sealed := by unfold quiesceDrainExpiry; split <;> simp

@[simp] theorem resumeBody_sealed (c : CmdRec) (s : State) : (resumeBody c s).2.sealed = s.sealed := by
  unfold resumeBody
  split <;> simp [apply_ite]

@[simp] theorem portRehomeBody_sealed (c : CmdRec) (s : State) : (portRehomeBody c s).2.sealed = s.sealed := by simp [portRehomeBody]

@[simp] theorem secondStartBody_sealed (c : CmdRec) (s : State) : (secondStartBody c s).2.sealed = s.sealed := by
  unfold secondStartBody
  dsimp only
  split
  · simp
  · split <;> simp

@[simp] theorem secondPromoteBody_sealed (n : CmdRec) (s : State) :
    (secondPromoteBody n s).2.sealed = s.sealed := by simp [secondPromoteBody]

@[simp] theorem readCtrs_sealed (as : List Nat) (clear : Bool) (s : State) : (readCtrs as clear s).2.sealed = s.sealed := by simp [readCtrs]

@[simp] theorem statsReadBody_sealed (c : CmdRec) (s : State) :
    (statsReadBody c s).2.sealed = s.sealed := by unfold statsReadBody; split <;> simp

@[simp] theorem captureStartBody_sealed (c : CmdRec) (s : State) : (captureStartBody c s).2.sealed = s.sealed := by
  unfold captureStartBody
  dsimp only
  split
  · rfl
  split
  · simp
  split
  · rfl
  split
  · simp
  · next h => simpa using allocRun_sealed h

@[simp] theorem captureOwned_sealed (act : State → State) (c : CmdRec) (s : State) (hact : ∀ u, (act u).sealed = u.sealed) :
    (captureOwned act c s).2.sealed = s.sealed := by simp [captureOwned, hact]

@[simp] theorem nopBody_sealed (n : CmdRec) (s : State) : (nopBody n s).2.sealed = s.sealed := by simp [nopBody]
@[simp] theorem regReadBody_sealed (c : CmdRec) (s : State) : (regReadBody c s).2.sealed = s.sealed := by simp [regReadBody]

@[simp] theorem again_sealed (c : CmdRec) (s : State) : (again c s).sealed = s.sealed := by
  unfold again
  dsimp only
  (repeat' split) <;> simp

@[simp] theorem dupRow_sealed (c : CmdRec) (q : Queue) (s : State) : (dupRow c q s).sealed = s.sealed := by
  unfold dupRow
  (repeat' split) <;> simp

@[simp] theorem cmdIntake_sealed (lp : Nat) (f : CmdFrame) (s : State) :
    (cmdIntake lp f s).sealed = s.sealed := by simp [cmdIntake]; split <;> simp

@[simp] theorem resumeRing_sealed (k n fuel : Nat) (s : State) : (resumeRing k n fuel s).sealed = s.sealed := by
  induction fuel generalizing s with
  | zero => rfl
  | succ fuel ih =>
    unfold resumeRing
    split
    · rfl
    · split
      · rfl
      · simp [ih]

@[simp] theorem ringProducerResume_sealed (k n : Nat) (s : State) : (ringProducerResume k n s).sealed = s.sealed := by
  unfold ringProducerResume
  split
  · simp
  · split <;> simp

/-! ### The Partner mirror log -/

@[simp] theorem spaceMirrored_sealed (c : CmdRec) (s : State) : (spaceMirrored c s).2.sealed = s.sealed := by simp [spaceMirrored]

@[simp] theorem shadowGone_sealed (region : Bool) (x off : Nat) (s : State) : (shadowGone region x off s).2.sealed = s.sealed := by
  unfold shadowGone
  split <;> split <;> simp

@[simp] theorem ropeCopied_sealed (c : CmdRec) (s : State) : (ropeCopied c s).2.sealed = s.sealed := by simp [ropeCopied]
@[simp] theorem roleCopied_sealed (c : CmdRec) (s : State) : (roleCopied c s).2.sealed = s.sealed := by simp [roleCopied]

@[simp] theorem configBody_sealed (c : CmdRec) (s : State) : (configBody c s).2.sealed = s.sealed := by
  unfold configBody
  split
  · split <;> simp [apply_ite]
  all_goals simp [apply_ite]

@[simp] theorem applyConfig_sealed (k : Nat) (b : List Byte) (s : State) : (applyConfig k b s).2.sealed = s.sealed := by
  unfold applyConfig
  dsimp only
  split
  · rfl
  split
  · rfl
  have h := configBody_sealed (shadowCmd k b) s
  split
  · next e => simpa [e] using h
  · rfl
  · rfl

@[simp] theorem applyWri_sealed (c lsn : Nat) (r : LogRec) (s : State) :
    (applyWri c lsn r s).sealed = s.sealed := by simp only [applyWri]; split <;> simp

@[simp] theorem applyAti_sealed (c lsn : Nat) (r : LogRec) (s : State) :
    (applyAti c lsn r s).sealed = s.sealed := by simp only [applyAti]; split <;> simp

@[simp] theorem applyDone_sealed (c lsn : Nat) (r : LogRec) (s : State) :
    (applyDone c lsn r s).sealed = s.sealed := by simp only [applyDone]; split <;> simp

@[simp] theorem applyDirent_sealed (r : LogRec) (s : State) : (applyDirent r s).sealed = s.sealed := by simp [applyDirent]
@[simp] theorem applyCairn_sealed (r : LogRec) (s : State) : (applyCairn r s).sealed = s.sealed := by simp [applyCairn]
@[simp] theorem applyAgent_sealed (r : LogRec) (s : State) : (applyAgent r s).sealed = s.sealed := by simp only [applyAgent]; split <;> simp
@[simp] theorem applyOwn_sealed (r : LogRec) (s : State) : (applyOwn r s).sealed = s.sealed := by simp [applyOwn]
@[simp] theorem applyRetire_sealed (r : LogRec) (s : State) : (applyRetire r s).sealed = s.sealed := by simp [applyRetire]

@[simp] theorem applySnap_sealed (r : LogRec) (s : State) : (applySnap r s).sealed = s.sealed := by
  unfold applySnap
  dsimp only
  (repeat' split) <;> simp

@[simp] theorem inputDesc_sealed (k : Nat) (item : List Byte) (s : State) : (inputDesc k item s).sealed = s.sealed := by simp [inputDesc]

@[simp] theorem inputPacket_sealed (item : List Byte) (s : State) : (inputPacket item s).sealed = s.sealed := by
  unfold inputPacket
  dsimp only
  (repeat' split) <;> simp

@[simp] theorem inputRow_sealed (tile : Nat) (item : List Byte) (s : State) :
    (inputRow tile item s).sealed = s.sealed := by simp only [inputRow]; split <;> simp

@[simp] theorem applyInput_sealed (r : LogRec) (s : State) : (applyInput r s).sealed = s.sealed := by unfold applyInput; split <;> simp
@[simp] theorem dropUnitState_sealed (s : State) : (dropUnitState s).sealed = s.sealed := by simp [dropUnitState]
@[simp] theorem windowClosed_sealed (n w : Nat) (s : State) : (windowClosed n w s).sealed = s.sealed := by simp [windowClosed]
@[simp] theorem applyMark_sealed (c : Nat) (r : LogRec) (s : State) : (applyMark c r s).sealed = s.sealed := by simp [applyMark]

@[simp] theorem applyLog_sealed (c lsn : Nat) (r : LogRec) (s : State) :
    (applyLog c lsn r s).2.sealed = s.sealed := by unfold applyLog; split <;> simp

@[simp] theorem applyRecs_sealed (c lsn : Nat) (rs : List LogRec) (s : State) : (applyRecs c lsn rs s).sealed = s.sealed := by
  induction rs generalizing lsn s with
  | nil => rfl
  | cons r rs ih => simp [applyRecs, ih]

@[simp] theorem mlog_sealed (lp tc : Nat) (p : Kmt) (s : State) : (mlog lp tc p s).sealed = s.sealed := by simp [mlog]
@[simp] theorem heldCmd_sealed (c : CmdRec) (s : State) : (heldCmd c s).sealed = s.sealed := by simp [heldCmd]

@[simp] theorem openGate_sealed (h : Held) (s : State) : (openGate h s).sealed = s.sealed := by
  unfold openGate
  (repeat' split) <;> simp

@[simp] theorem releaseHeld_sealed (n : Nat) (s : State) : (releaseHeld n s).sealed = s.sealed := by
  induction n generalizing s with
  | zero => rfl
  | succ n ih =>
    unfold releaseHeld
    split
    · rfl
    · simp [ih]

@[simp] theorem settleHeld_sealed (s : State) : (settleHeld s).sealed = s.sealed := by simp [settleHeld]

@[simp] theorem configFailed_sealed (m : MlogPkt) (status : Nat) (s : State) : (configFailed m status s).sealed = s.sealed := by
  simp only [configFailed, sealed_ite]
  refine ite_eq_left_iff.mpr fun _ => each_sealed _ (fun h t => ?_) s
  split <;> simp

@[simp] theorem settleSwitch_sealed (s : State) : (settleSwitch s).sealed = s.sealed := by simp [settleSwitch]

@[simp] theorem mlogResponse_sealed (lp tc : Nat) (p : Kmt) (s : State) : (mlogResponse lp tc p s).sealed = s.sealed := by
  unfold mlogResponse
  dsimp only
  split
  · simp
  split
  · simp
  · split <;> simp

@[simp] theorem mlogTmoExpiry_sealed (id : Nat) (s : State) : (mlogTmoExpiry id s).sealed = s.sealed := by
  unfold mlogTmoExpiry
  split
  · simp
  · split <;> simp

@[simp] theorem sendConfig_sealed (k op : Nat) (params : List Byte) (s : State) :
    (sendConfig k op params s).sealed = s.sealed := by simp [sendConfig]

@[simp] theorem snapUnit_sealed (key : Nat) (s : State) : (snapUnit key s).sealed = s.sealed := by simp [snapUnit]
@[simp] theorem snapSpace_sealed (k x : Nat) (s : State) : (snapSpace k x s).sealed = s.sealed := by simp [snapSpace]
@[simp] theorem snapComp_sealed (k : Nat) (s : State) : (snapComp k s).sealed = s.sealed := by simp [snapComp]
@[simp] theorem startLeading_sealed (s : State) : (startLeading s).sealed = s.sealed := by simp [startLeading]

@[simp] theorem sendSnap_sealed (q : Nat × Nat × Bool) (s : State) : (sendSnap q s).sealed = s.sealed := by
  unfold sendSnap
  dsimp only
  split
  · simp
  · split <;> simp

@[simp] theorem sendMarks_sealed (w : Nat) (s : State) : (sendMarks w s).sealed = s.sealed := by simp [sendMarks]

@[simp] theorem secondWindowEnd_sealed (s : State) : (secondWindowEnd s).sealed = s.sealed := by
  unfold secondWindowEnd
  dsimp only
  split
  · simp
  · split <;> simp

@[simp] theorem promoteTmoExpiry_sealed (s : State) : (promoteTmoExpiry s).sealed = s.sealed := by simp [promoteTmoExpiry]

/-! ### Partner faults -/

@[simp] theorem sendBeats_sealed (lost : Option Nat) (s : State) : (sendBeats lost s).sealed = s.sealed := by simp [sendBeats]
@[simp] theorem hbeatTimer_sealed (s : State) : (hbeatTimer s).sealed = s.sealed := by simp [hbeatTimer]
@[simp] theorem openGates_sealed (s : State) : (openGates s).sealed = s.sealed := by simp [openGates]
@[simp] theorem unpair_sealed (s : State) : (unpair s).sealed = s.sealed := by simp [unpair]
@[simp] theorem liftFence_sealed (s : State) : (liftFence s).sealed = s.sealed := by simp [liftFence]

@[simp] theorem settlePairing_sealed (names : Bool) (h : Nat) (s : State) :
    (settlePairing names h s).sealed = s.sealed := by simp [settlePairing]

@[simp] theorem settlePair_sealed (s : State) : (settlePair s).sealed = s.sealed := by simp [settlePair]
@[simp] theorem promoted_sealed (s : State) : (promoted s).sealed = s.sealed := by simp [promoted]

@[simp] theorem fromPartner_sealed (ep code flags : Nat) (names : Bool) (h : Nat) (s : State) :
    (fromPartner ep code flags names h s).sealed = s.sealed := by simp [fromPartner]

@[simp] theorem lostNotice_sealed (node : Nat) (s : State) : (lostNotice node s).sealed = s.sealed := by simp [lostNotice]

@[simp] theorem hbeat_sealed (lp tc : Nat) (p : Kmt) (names : Bool) (h : Nat) (s : State) :
    (hbeat lp tc p names h s).sealed = s.sealed := by simp [hbeat]

@[simp] theorem fenceUsExpiry_sealed (s : State) : (fenceUsExpiry s).sealed = s.sealed := by unfold fenceUsExpiry; split <;> simp

@[simp] theorem reissueIntent_sealed (i : Intent) (s : State) : (reissueIntent i s).sealed = s.sealed := by
  unfold reissueIntent
  dsimp only
  split
  · simp
  · split <;> simp

@[simp] theorem reissueTxn_sealed (i : Intent) (s : State) : (reissueTxn i s).sealed = s.sealed := by simp [reissueTxn]
@[simp] theorem ownShadows_sealed (s : State) : (ownShadows s).sealed = s.sealed := by simp [ownShadows]
@[simp] theorem takeover_sealed (s : State) : (takeover s).sealed = s.sealed := by simp [takeover]
@[simp] theorem lostUsExpiry_sealed (s : State) : (lostUsExpiry s).sealed = s.sealed := by unfold lostUsExpiry; split <;> simp
@[simp] theorem takeoverDone_sealed (s : State) : (takeoverDone s).sealed = s.sealed := by simp [takeoverDone]

/-! ### Answers of HBM, trays and agents -/

@[simp] theorem hbmResponse_sealed (id : Nat) (ue : List Nat) (s : State) :
    (hbmResponse id ue s).sealed = s.sealed := by unfold hbmResponse; split <;> simp

@[simp] theorem trayResponse_sealed (lp tc : Nat) (p : Kmt) (s : State) :
    (trayResponse lp tc p s).sealed = s.sealed := by simp [trayResponse]

@[simp] theorem probeResponse_sealed (lp tc : Nat) (p : Kmt) (s : State) :
    (probeResponse lp tc p s).sealed = s.sealed := by simp [probeResponse]

@[simp] theorem whenRunning_sealed (f : State → State) (s : State) (hf : ∀ u, (f u).sealed = u.sealed) :
    (whenRunning f s).sealed = s.sealed := by simp [whenRunning, hf]

/-! ### Register access -/

@[simp] theorem afterWrite_sealed (s : State) : (afterWrite s).sealed = s.sealed := by simp [afterWrite]

@[simp] theorem counterReadClear_sealed (path : RegPath) (a : Nat) (s : State) :
    (counterReadClear path a s).sealed = s.sealed := by simp [counterReadClear]

/-! ### Management sessions -/

@[simp] theorem hello_sealed (peer : Nat) (nonce : List Byte) (chain : List (List Byte)) (s : State) :
    (hello peer nonce chain s).sealed = s.sealed := by
  unfold hello
  (repeat' split) <;> simp

@[simp] theorem kex_sealed (peer : Nat) (ct sig : List Byte) (s : State) : (kex peer ct sig s).sealed = s.sealed := by
  unfold kex
  dsimp only
  (repeat' split) <;> simp

@[simp] theorem endSession_sealed (n : Nat) (s : State) : (endSession n s).sealed = s.sealed := by simp [endSession]

@[simp] theorem mgmtSessionIdle_sealed (n : Nat) (s : State) :
    (mgmtSessionIdle n s).sealed = s.sealed := by unfold mgmtSessionIdle; split <;> simp

/-- What a session's message does to the sealed part, its body does. -/
theorem sessionMsg_sealed_cases (h : MgmtHdr) (mop : Nat) (may : Session → Bool) (body : Session → State → Answer × State) (s : State) :
    (sessionMsg h mop may body s).sealed = s.sealed ∨
      ∃ (q : Session) (t : State), t.sealed = s.sealed ∧ (sessionMsg h mop may body s).sealed = (body q t).2.sealed := by
  unfold sessionMsg
  split
  · exact .inl rfl
  split
  · exact .inl rfl
  split
  · exact .inl (by simp)
  split
  · exact .inl (by simp)
  extract_lets q sec t r
  have ht : t.sealed = s.sealed := by simp [t]
  split
  · exact .inl (by simp [ht])
  · exact .inr ⟨q, t, ht, by simp [r]⟩

@[simp] theorem sessionMsg_sealed (h : MgmtHdr) (mop : Nat) (may : Session → Bool) (body : Session → State → Answer × State) (s : State)
    (hbody : ∀ x u, (body x u).2.sealed = u.sealed) :
    (sessionMsg h mop may body s).sealed = s.sealed := by
  obtain e | ⟨q, t, ht, e⟩ := sessionMsg_sealed_cases h mop may body s
  · exact e
  · rw [e, hbody, ht]

@[simp] theorem mgmtRegRead_sealed (h : MgmtHdr) (a n : Nat) (s : State) : (mgmtRegRead h a n s).sealed = s.sealed := by simp [mgmtRegRead]

@[simp] theorem attest_sealed (h : MgmtHdr) (f : State → Answer × State) (s : State) (hf : ∀ u, (f u).2.sealed = u.sealed) :
    (attest h f s).sealed = s.sealed := by simp [attest, hf]

@[simp] theorem spdmSigned_sealed (a : Answer) (s : State) : (spdmSigned a s).2.sealed = s.sealed := by simp [spdmSigned]
@[simp] theorem getVersion_sealed (h : MgmtHdr) (s : State) : (getVersion h s).sealed = s.sealed := by simp [getVersion]
@[simp] theorem getCapabilities_sealed (h : MgmtHdr) (s : State) : (getCapabilities h s).sealed = s.sealed := by simp [getCapabilities]

@[simp] theorem negotiateAlgorithms_sealed (h : MgmtHdr) (hash ext : Bool) (s : State) :
    (negotiateAlgorithms h hash ext s).sealed = s.sealed := by simp [negotiateAlgorithms]

@[simp] theorem getDigests_sealed (h : MgmtHdr) (s : State) : (getDigests h s).sealed = s.sealed := by simp [getDigests]

@[simp] theorem getCertificate_sealed (h : MgmtHdr) (slot offset length : Nat) (s : State) :
    (getCertificate h slot offset length s).sealed = s.sealed := by simp [getCertificate]

@[simp] theorem challenge_sealed (h : MgmtHdr) (slot : Nat) (nonce : List Byte) (s : State) :
    (challenge h slot nonce s).sealed = s.sealed := by simp [challenge]

@[simp] theorem getMeasurements_sealed (h : MgmtHdr) (index : Nat) (nonce : List Byte) (s : State) :
    (getMeasurements h index nonce s).sealed = s.sealed := by simp [getMeasurements]

@[simp] theorem spdmUnsupported_sealed (h : MgmtHdr) (code : Nat) (s : State) :
    (spdmUnsupported h code s).sealed = s.sealed := by simp [spdmUnsupported]

@[simp] theorem keyInstallBody_sealed (k kind g : Nat) (resv : Bool) (ct wrapped : List Byte) (s : State) :
    (keyInstallBody k kind g resv ct wrapped s).2.sealed = s.sealed := by
  unfold keyInstallBody
  (repeat' split) <;> simp

@[simp] theorem keyInstall_sealed (h : MgmtHdr) (k kind g : Nat) (resv : Bool) (ct wrapped : List Byte) (s : State) :
    (keyInstall h k kind g resv ct wrapped s).sealed = s.sealed := by simp [keyInstall]

@[simp] theorem keyRetire_sealed (h : MgmtHdr) (k g : Nat) (s : State) : (keyRetire h k g s).sealed = s.sealed := by simp [keyRetire]

@[simp] theorem installSa_sealed (lp : Nat) (tx : Bool) (a : Sa) (s : State) :
    (installSa lp tx a s).sealed = s.sealed := by simp [installSa]

@[simp] theorem sakInstall_sealed (h : MgmtHdr) (lp : Nat) (tx : Bool) (an ssci : Nat) (salt : List Byte) (pn : Nat) (ct wrapped : List Byte)
    (s : State) :
    (sakInstall h lp tx an ssci salt pn ct wrapped s).sealed = s.sealed := by
  refine sessionMsg_sealed _ _ _ _ _ fun q t => ?_
  split
  · rfl
  · split <;> simp

@[simp] theorem capsuleWrite_sealed (h : MgmtHdr) (c : Capsule) (s : State) :
    (capsuleWrite h c s).sealed = s.sealed := by simp [capsuleWrite]

@[simp] theorem imageWrite_sealed (h : MgmtHdr) (i : Image) (s : State) : (imageWrite h i s).sealed = s.sealed := by simp [imageWrite]

@[simp] theorem ownerClaim_sealed (h : MgmtHdr) (key : List Byte) (s : State) :
    (ownerClaim h key s).sealed = s.sealed := by simp [ownerClaim]

@[simp] theorem ownerRelease_sealed (h : MgmtHdr) (sig : List Byte) (s : State) :
    (ownerRelease h sig s).sealed = s.sealed := by simp [ownerRelease]


/-! ### What a write of a register keeps -/

/-- The RWL fields that have been written keep their values (R11), and the queue is as before. -/
def KeepsSeals (s t : State) : Prop :=
  t.pending = s.pending ∧
  (s.dev.jtagRoSet = true → t.dev.jtagRoSet = true ∧ t.dev.jtagRo = s.dev.jtagRo) ∧
  (s.dev.thermLockSet = true → t.dev.thermLockSet = true ∧ t.dev.thermLock = s.dev.thermLock)

theorem KeepsSeals.of_sealed {s t : State} (h : t.sealed = s.sealed) : KeepsSeals s t := by
  simp only [State.sealed, Prod.mk.injEq] at h
  obtain ⟨⟨hrs, hr, hls, hl⟩, hp⟩ := h
  exact ⟨hp, fun hs => ⟨hrs.trans hs, hr⟩, fun hs => ⟨hls.trans hs, hl⟩⟩

theorem KeepsSeals.refl (s : State) : KeepsSeals s s := KeepsSeals.of_sealed rfl

theorem KeepsSeals.trans {s t u : State} (h : KeepsSeals s t) (k : KeepsSeals t u) : KeepsSeals s u := by
  obtain ⟨hp, hr, hl⟩ := h
  obtain ⟨kp, kr, kl⟩ := k
  refine ⟨kp.trans hp, fun hs => ?_, fun hs => ?_⟩
  · exact ⟨(kr (hr hs).1).1, (kr (hr hs).1).2.trans (hr hs).2⟩
  · exact ⟨(kl (hl hs).1).1, (kl (hl hs).1).2.trans (hl hs).2⟩

theorem each_keepsSeals {α : Type} (l : List α) {f : α → State → State} (h : ∀ a t, KeepsSeals t (f a t)) (s : State) :
    KeepsSeals s (each l f s) := by
  induction l generalizing s with
  | nil => exact KeepsSeals.refl _
  | cons a l ih => exact (h a s).trans (ih (f a s))

/-- LOCK is written once: a later write leaves it (R11). -/
theorem writeTherm_keepsSeals (v : Nat) (s : State) : KeepsSeals s (writeTherm v s).2 := by
  unfold writeTherm
  split
  · exact KeepsSeals.refl _
  extract_lets locked t
  have ht : KeepsSeals s t := KeepsSeals.of_sealed (by simp [t])
  refine ht.trans ⟨rfl, fun h => ⟨h, rfl⟩, fun h => ⟨rfl, ?_⟩⟩
  exact if_pos h

theorem KeepsSeals.ite {c : Prop} [Decidable c] {s t u : State} (ht : KeepsSeals s t) (hu : KeepsSeals s u) :
    KeepsSeals s (if c then t else u) := by
  split
  · exact ht
  · exact hu

theorem KeepsSeals.ite_snd {c : Prop} [Decidable c] {s : State} {p q : Nat × State} (hp : KeepsSeals s p.2)
    (hq : KeepsSeals s q.2) : KeepsSeals s (if c then p else q).2 := by
  split
  · exact hp
  · exact hq

/-- JTAG_RO is written once: a later write leaves it (R11). -/
theorem writeJtagRo_keepsSeals (b : Bool) (s : State) :
    KeepsSeals s (if s.dev.jtagRoSet then s else { s with dev.jtagRo := b, dev.jtagRoSet := true }) := by
  split
  · exact KeepsSeals.refl _
  · next h => exact ⟨rfl, fun hs => absurd hs h, fun hs => ⟨hs, rfl⟩⟩

/-- Of the words of the register window only 0x30 (JTAG_RO) and 0x0C000080 (LOCK) hold the RWL fields. -/
theorem writeWord_keepsSeals (m : Bool) (path : RegPath) (a v : Nat) (s : State) : KeepsSeals s (writeWord m path a v s).2 := by
  unfold writeWord
  dsimp only
  iterate 13 refine KeepsSeals.ite_snd (KeepsSeals.of_sealed (by simp)) ?_
  split
  · exact KeepsSeals.of_sealed (by simp)
  · exact writeJtagRo_keepsSeals (bit v 0) s
  · exact KeepsSeals.of_sealed (by simp)
  · exact KeepsSeals.of_sealed (by simp)
  · exact writeTherm_keepsSeals v s
  all_goals exact KeepsSeals.of_sealed (by simp)

theorem writeWords_keepsSeals (m : Bool) (path : RegPath) (ws : List (Nat × Nat)) {s0 s : State} (h : KeepsSeals s0 s) :
    KeepsSeals s0 (writeWords m path s0 ws s).2 := by
  induction ws generalizing s with
  | nil => exact h
  | cons w ws ih =>
    simp only [writeWords]
    split
    · exact ih (h.trans (writeWord_keepsSeals m path w.1 w.2 s))
    · exact KeepsSeals.of_sealed (by simp)

theorem writeOn_keepsSeals (path : RegPath) (a : Nat) (v : Word) (s : State) : KeepsSeals s (writeOn path a v s) := by
  unfold writeOn
  split
  · exact (writeWord_keepsSeals (pathM path) path a v.toNat s).trans (KeepsSeals.of_sealed (afterWrite_sealed _))
  · exact KeepsSeals.refl _

theorem regWriteBody_keepsSeals (c : CmdRec) (s : State) : KeepsSeals s (regWriteBody c s).2 :=
  (writeWords_keepsSeals _ _ _ (KeepsSeals.refl _)).trans (KeepsSeals.of_sealed (settlePair_sealed _))

theorem runCmd_keepsSeals (k q op : Nat) (act : Nat → Bool) {body : CmdRec → State → CmdRes × State}
    (h : ∀ c t, KeepsSeals t (body c t).2) (s : State) : KeepsSeals s (runCmd k q op act body s) := by
  obtain e | ⟨c, t, ht, e⟩ := runCmd_sealed_cases k q op act body s
  · exact KeepsSeals.of_sealed e
  · exact ((KeepsSeals.of_sealed ht).trans (h c t)).trans (KeepsSeals.of_sealed e)

theorem mgmtRegWrite_keepsSeals (h : MgmtHdr) (a : Nat) (ws : List Word) (s : State) : KeepsSeals s (mgmtRegWrite h a ws s) := by
  unfold mgmtRegWrite
  extract_lets act
  refine KeepsSeals.trans ?_ (KeepsSeals.of_sealed (afterWrite_sealed _))
  have hact : ∀ q t, KeepsSeals t (act q t).2 := by
    intro q t
    simp only [act]
    split
    · exact KeepsSeals.refl _
    split
    · exact KeepsSeals.refl _
    · exact writeWords_keepsSeals _ _ _ (KeepsSeals.refl _)
  obtain e | ⟨q, t, ht, e⟩ := sessionMsg_sealed_cases h 0x11 (fun q => if q.recovery then a == 0x18 && ws.length == 1 else bit q.rights 1) act s
  · exact KeepsSeals.of_sealed e
  · exact ((KeepsSeals.of_sealed ht).trans (hact q t)).trans (KeepsSeals.of_sealed e)

theorem applyWrites_keepsSeals (c : Capsule) (s : State) : KeepsSeals s (applyWrites c s) :=
  each_keepsSeals c.writes (fun _ _ => writeWord_keepsSeals ..) s

theorem warmGo_keepsSeals (s : State) : KeepsSeals s (warmGo s) := by
  unfold warmGo
  have h : KeepsSeals s { s with dev.warmHeld := false } := KeepsSeals.of_sealed (by simp)
  split
  · exact h.trans (applyWrites_keepsSeals _ _)
  · exact h

theorem warmReset_keepsSeals (cause : Nat) (s : State) : KeepsSeals s (warmReset cause s) := by
  unfold warmReset
  extract_lets frozen s1 keep dev sec s2
  have h1 : KeepsSeals s s1 := KeepsSeals.of_sealed (by simp [s1])
  have h2 : KeepsSeals s s2 := h1.trans (KeepsSeals.of_sealed (by simp [s2, dev]))
  split
  · exact h2
  · exact h2.trans (warmGo_keepsSeals s2)

theorem coreRstNAssert_keepsSeals (s : State) : KeepsSeals s (coreRstNAssert s) := by
  unfold coreRstNAssert
  extract_lets dev t
  have h : KeepsSeals s t := KeepsSeals.of_sealed (by simp [t, dev])
  split
  · exact h.trans (warmReset_keepsSeals 2 t)
  · exact h

theorem coreRstNRelease_keepsSeals (s : State) : KeepsSeals s (coreRstNRelease s) := by
  unfold coreRstNRelease
  extract_lets dev t
  have h : KeepsSeals s t := KeepsSeals.of_sealed (by simp [t, dev])
  split
  · exact h.trans (warmGo_keepsSeals t)
  · exact h

theorem resetDelayExpiry_keepsSeals (s : State) (hw : ∀ r, s.dev.resetReq = some r → r.cold = false) :
    KeepsSeals s (resetDelayExpiry s) := by
  unfold resetDelayExpiry
  split
  · exact KeepsSeals.refl _
  next r hr =>
  extract_lets s1 dev s2
  have h : KeepsSeals s s2 := KeepsSeals.of_sealed (by simp [s2, dev, s1])
  rw [if_neg (by simp [hw r hr])]
  split
  · exact h.trans (warmReset_keepsSeals r.cause s2)
  · exact h

theorem capsuleDone_keepsSeals (r : BootResult) (s : State) : KeepsSeals s (capsuleDone r s) := by
  unfold capsuleDone
  split
  · exact KeepsSeals.of_sealed (by simp)
  split
  · exact KeepsSeals.of_sealed (by simp)
  split
  · exact KeepsSeals.of_sealed (by simp)
  next c _ _ _ =>
  refine KeepsSeals.trans (t := { s with sec.capsule := some c, dev.flash.capSvn := c.capSvn }) ?_ ?_
  · exact KeepsSeals.of_sealed (by simp)
  · exact (applyWrites_keepsSeals c _).trans (KeepsSeals.of_sealed (toStage_sealed 5 _))

theorem bootStageComplete_keepsSeals (r : BootResult) (s : State) : KeepsSeals s (bootStageComplete r s) := by
  unfold bootStageComplete
  split
  · exact KeepsSeals.refl _
  split
  case h_5 => exact capsuleDone_keepsSeals r s
  all_goals exact KeepsSeals.of_sealed (by simp)

/-- Every command but the four that start a cold reset answers, keeps the RWL fields that have been written, and leaves the queue. -/
theorem exec_keepsSeals (c : Instr) (s : State) (hcold : c ∉ [.pwrOkFall, .brownOut, .porstNAssert])
    (hwarm : c = .resetDelayExpiry → ∀ r, s.dev.resetReq = some r → r.cold = false) :
    ∃ t, exec c s = .next t ∧ KeepsSeals s t := by
  cases c
  case pwrOkFall | brownOut | porstNAssert => simp at hcold
  case resetDelayExpiry => exact ⟨_, rfl, resetDelayExpiry_keepsSeals s (hwarm rfl)⟩
  case coreRstNAssert => exact ⟨_, rfl, coreRstNAssert_keepsSeals s⟩
  case coreRstNRelease => exact ⟨_, rfl, coreRstNRelease_keepsSeals s⟩
  case bootStageComplete r => exact ⟨_, rfl, bootStageComplete_keepsSeals r s⟩
  case regWrite k q =>
    have h := runCmd_keepsSeals k q 0x03 anyAct regWriteBody_keepsSeals s
    exact ⟨_, rfl, h.trans (.of_sealed (settleAll_sealed _))⟩
  case mgmtRegWrite | dirAgentEvict | frzReadoutStart => exact ⟨_, rfl, mgmtRegWrite_keepsSeals ..⟩
  case hutRstCtlCold | hutRstCtlWarm => exact ⟨_, rfl, (mgmtRegWrite_keepsSeals ..).ite (.refl s)⟩
  case registerWrite | cmdAttnCauseW1c => exact ⟨_, rfl, writeOn_keepsSeals ..⟩
  case portCfgWrite | portCtlRetrain | engCtlReset | engRopeCtlReset | haulCtlReset | haulRopeCtlReset =>
    exact ⟨_, rfl, (writeOn_keepsSeals ..).ite (.refl s)⟩
  all_goals exact ⟨_, rfl, .of_sealed (by simp)⟩

/-! ### A cold reset unlocks -/

@[simp] theorem coldReset_jtagRoSet (cause : Nat) (s : State) : (coldReset cause s).dev.jtagRoSet = false := rfl
@[simp] theorem coldReset_thermLockSet (cause : Nat) (s : State) : (coldReset cause s).dev.thermLockSet = false := rfl

theorem pwrOkFall_unlocks (s : State) : (pwrOkFall s).dev.jtagRoSet = false ∧ (pwrOkFall s).dev.thermLockSet = false := by
  simp [pwrOkFall]

theorem brownOut_unlocks {s : State} (hpwr : s.dev.pwrOk = true) :
    (brownOut s).dev.jtagRoSet = false ∧ (brownOut s).dev.thermLockSet = false := by
  simp [brownOut, hpwr]

theorem porstNAssert_unlocks {s : State} (hpwr : s.dev.pwrOk = true) (hbrown : s.dev.brown = false) :
    (porstNAssert s).dev.jtagRoSet = false ∧ (porstNAssert s).dev.thermLockSet = false := by
  simp [porstNAssert, hpwr, hbrown]

theorem resetDelayExpiry_unlocks {s : State} {r : ResetReq} (hr : s.dev.resetReq = some r) (hcold : r.cold = true) :
    (resetDelayExpiry s).dev.jtagRoSet = false ∧ (resetDelayExpiry s).dev.thermLockSet = false := by
  simp [resetDelayExpiry, hr, hcold]

/-- Settles O6: every command but the four keeps the written fields, by `exec_keepsSeals`; the four end in `coldReset`. -/
theorem locksKept : Obligations.LocksKept := by
  refine ⟨fun c s t ht hcold hwarm => ?_, fun s hpwr hbrown => ⟨fun c hc => ?_, fun r hr hcold => ?_⟩⟩
  · obtain ⟨u, hu, -, hjtag, htherm⟩ := exec_keepsSeals c s hcold hwarm
    obtain rfl : u = t := by simpa [hu] using ht
    exact ⟨hjtag, htherm⟩
  · simp only [List.mem_cons, List.not_mem_nil, or_false] at hc
    obtain rfl | rfl | rfl := hc
    · exact ⟨pwrOkFall s, rfl, pwrOkFall_unlocks s⟩
    · exact ⟨brownOut s, rfl, brownOut_unlocks hpwr⟩
    · exact ⟨porstNAssert s, rfl, porstNAssert_unlocks hpwr hbrown⟩
  · exact ⟨resetDelayExpiry s, rfl, resetDelayExpiry_unlocks hr hcold⟩

end Sys2Proof.Machine
end

section
/-! SUPPORT. The statements of 01_architecture: combining windows and decisions (R133 to R137), the rates of R138, the reply
cache (R142), and the drain timeout of a revocation (R143).

A composition that is not mirrored has nothing logged or digested, so a closing window goes straight to the memory. A decision and a
rate step are each a fold over keys (classes, ports) in which a key's own step alone decides what it reads as. A drain timeout is a
run of operations each of which ends requests and does nothing else to clock, HBM, tracker and memory operations (`OnlyEndsReqs`).
That the clock stands at the due instant of each timer is the model's choice (log entry 8). -/

namespace Sys2Proof.Machine

/-! ### Frames of steps in a row -/

theorem OnlyChanges.refl (fs : List Field) (s : State) : OnlyChanges fs s s :=
  ⟨rfl, fun f _ => by cases f <;> rfl⟩

theorem Field.same_trans {s t u : State} {f : Field} (h : f.same s t) (k : f.same t u) : f.same s u := by
  cases f <;> exact Eq.trans k h

theorem OnlyChanges.trans {fs : List Field} {s t u : State} (h : OnlyChanges fs s t) (k : OnlyChanges fs t u) : OnlyChanges fs s u :=
  ⟨k.1.trans h.1, fun f hf => Field.same_trans (h.2 f hf) (k.2 f hf)⟩

theorem OnlyChanges.mono {fs gs : List Field} {s t : State} (h : OnlyChanges fs s t) (hsub : fs ⊆ gs) : OnlyChanges gs s t :=
  ⟨h.1, fun f hf => h.2 f fun hmem => hf (hsub hmem)⟩

theorem onlyChanges_xlt (s : State) (x : Xlt) : OnlyChanges [.xlt] s { s with xlt := x } := by
  refine ⟨rfl, fun f hf => ?_⟩
  cases f
  case xlt => simp at hf
  all_goals rfl

theorem onlyChanges_elapse (d : Nat) (s : State) : OnlyChanges [.clock] s (elapse d s) := by
  refine ⟨elapse_pending d s, fun f hf => ?_⟩
  cases f
  case clock => simp at hf
  all_goals simp [Field.same]

theorem onlyChanges_atLeast (t : Nat) (s : State) : OnlyChanges [.clock] s (atLeast t s) := by
  unfold atLeast
  split
  · exact onlyChanges_elapse _ s
  · exact .refl _ s

theorem onlyChanges_each {α : Type} {fs : List Field} {f : α → State → State} (h : ∀ a t, OnlyChanges fs t (f a t)) (l : List α)
    (s : State) : OnlyChanges fs s (each l f s) := by
  induction l generalizing s with
  | nil => exact .refl fs s
  | cons a l ih => exact (h a s).trans (ih (f a s))

/-! ### The clock at an event that is due -/

@[simp] theorem elapse_clk (d : Nat) (s : State) : (elapse d s).clock.clk = s.clock.clk + d := by
  unfold elapse
  split <;> rfl

@[simp] theorem atLeast_clk (t : Nat) (s : State) : (atLeast t s).clock.clk = max s.clock.clk t := by
  unfold atLeast
  split
  · rw [elapse_clk]; omega
  · omega

theorem le_ceilDiv_mul (a : Nat) {k : Nat} (hk : 0 < k) : a ≤ ceilDiv a k * k := by
  have h := Nat.div_add_mod (a + k - 1) k
  have hlt := Nat.mod_lt (a + k - 1) hk
  rw [ceilDiv, Nat.mul_comm]
  omega

/-- A decision on a grid of `k` ns comes at the next point of the grid. -/
theorem atLeast_grid_clk (k : Nat) (hk : 0 < k) (s : State) :
    (atLeast (ceilDiv s.clock.clk k * k) s).clock.clk = ceilDiv s.clock.clk k * k := by
  rw [atLeast_clk, Nat.max_eq_right (le_ceilDiv_mul _ hk)]

/-! ### What the passing of time leaves readable as before -/

@[simp] theorem reg_atLeast (t : Nat) (s : State) : reg (atLeast t s) = reg s := by funext a; simp [reg]
@[simp] theorem findReq_atLeast (t : Nat) (s : State) : findReq (atLeast t s) = findReq s := by funext i; simp [findReq]
@[simp] theorem winOperands_atLeast (t : Nat) (s : State) (w : Window) : winOperands (atLeast t s) w = winOperands s w := by
  simp [winOperands]
@[simp] theorem coherentAt_atLeast (t : Nat) (s : State) (space a : Nat) : coherentAt (atLeast t s) space a = coherentAt s space a := by
  simp [coherentAt, regionAt]
@[simp] theorem mirrorBit_atLeast (t : Nat) (s : State) (k : Nat) : mirrorBit (atLeast t s) k = mirrorBit s k := by
  simp [mirrorBit, reg64]

/-! ### A composition that is not mirrored -/

theorem logRec_of_not_mirrored {s : State} {r : LogRec} (c : Nat) (h : mirrorBit s r.comp = false) : logRec c r s = (s, none) := by
  simp [logRec, logging, h]

theorem digestOut_of_not_mirrored {s : State} {k : Nat} (c seq : Nat) (bytes : List Byte) (h : mirrorBit s k = false) :
    digestOut c seq k bytes s = s := by
  simp [digestOut, digesting, h]

theorem each_eq_self {α σ : Type} {f : α → σ → σ} {s : σ} (h : ∀ a, f a s = s) (l : List α) : each l f s = s := by
  induction l with
  | nil => rfl
  | cons a l ih => exact (congrArg (each l f) (h a)).trans ih

theorem replyDigests_of_not_mirrored {s : State} {r : LogRec} (c lsn : Nat) (tri : List Byte) (status old : Nat)
    (h : mirrorBit s r.comp = false) : replyDigests c lsn r tri status old s = s := by
  unfold replyDigests
  split
  · exact digestOut_of_not_mirrored _ _ _ h
  · exact each_eq_self (fun q => digestOut_of_not_mirrored _ _ _ h) _
  · exact each_eq_self (fun q => digestOut_of_not_mirrored _ _ _ h) _
  · rfl

theorem logUpdate_of_not_mirrored {s : State} {r : LogRec} (c : Nat) (tri : List Byte) (status old : Nat)
    (h : mirrorBit s r.comp = false) : logUpdate c r tri status old s = (s, none) := by
  simp [logUpdate, logRec_of_not_mirrored c h, replyDigests_of_not_mirrored _ _ _ _ _ h]

/-- An atomic to an HBM extent, outside COHERENT regions, becomes one operation at the memory units, ungated. -/
theorem toMemory_of_atomic {s : State} {e : Extent} {p : Kmt} (x lp tc crest : Nat) (rs : List Req) (why : Why) (hhbm : e.hbm = true)
    (hcoh : coherentAt s p.space p.addr = false) (hmir : mirrorBit s p.comp = false) (hrd : p.opcode ≠ 0x01) (hwr : p.opcode ≠ 0x02) :
    toMemory e x p lp tc crest rs why s =
      some (issueHbm (extAddr e p.addr) (.atomic p.opcode (atomWidth p.opcode p.len) p.payload) why none s).2 := by
  have hlog := fun c old => logUpdate_of_not_mirrored (r := atiRec p (atomWidth p.opcode p.len) rs) c [] 0 old hmir
  simp [toMemory, hcoh, memDirect, hhbm, hrd, hwr, hlog]

/-! ### Combining windows (R134, R135) -/

/-- The window with this identifier takes no more requests. -/
def shutWindow (id : Nat) (s : State) : State :=
  { s with xlt.windows := modIf (·.id == id) (fun v => { v with isOpen := false }) s.xlt.windows }

theorem onlyChanges_shutWindow (id : Nat) (s : State) : OnlyChanges [.xlt] s (shutWindow id s) := onlyChanges_xlt s _

theorem onlyChanges_issueHbm (addr : Nat) (op : MemOp) (why : Why) (gate : Gate) (s : State) :
    OnlyChanges [.xlt] s (issueHbm addr op why gate s).2 := onlyChanges_xlt s _

theorem closeWindow_of_read {w : Window} (s : State) (hopen : w.isOpen = true) (hrd : isAtomWin w = false) :
    closeWindow w s = shutWindow w.id s := by
  simp [closeWindow, shutWindow, hopen, hrd]

/-- The operands of a window's requests, folded into the one that has their effect one after the other (R135). -/
def winOperand (s : State) (w : Window) : List Byte :=
  ((winOperands s w).drop 1).foldl (operandFold w.op w.len) ((winOperands s w).headD [])

/-- An open atomic window whose first request's extent is mapped sends that request to the memory, with the folded operand. -/
theorem closeWindow_eq_of_toMemory {s t : State} {w : Window} {r : Req} {rs : List Req} {x : Nat} {e : Extent}
    (hopen : w.isOpen = true) (hatom : isAtomWin w = true) (hrs : w.reqs.filterMap (findReq s) = r :: rs) (hext : r.ext = some x)
    (he : mget s.xlt.extents x = some e)
    (hto : toMemory e x { r.pkt with payload := winOperand s w } r.lp w.tc w.crest (r :: rs) (.window w.id) (shutWindow w.id s) = some t) :
    closeWindow w s = t := by
  unfold closeWindow
  rw [if_neg (by simp [hopen])]
  extract_lets _ shut reqs _ operand
  have hreqs : reqs = r :: rs := hrs
  have he' : mget shut.xlt.extents x = some e := he
  change toMemory e x { r.pkt with payload := operand } r.lp w.tc w.crest (r :: rs) (.window w.id) shut = some t at hto
  clear_value shut reqs operand
  simp only [hatom, if_true, hreqs, hext, Option.bind_some, he', Option.getD_some, hto]

theorem closeWindow_of_atomic {s : State} {w : Window} {r : Req} {rs : List Req} {x : Nat} {e : Extent} (hopen : w.isOpen = true)
    (hatom : isAtomWin w = true) (hrs : w.reqs.filterMap (findReq s) = r :: rs) (hext : r.ext = some x)
    (he : mget s.xlt.extents x = some e) (hhbm : e.hbm = true) (hcoh : coherentAt s r.pkt.space r.pkt.addr = false)
    (hmir : mirrorBit s r.pkt.comp = false) (hop : r.pkt.opcode = w.op) (hwr : w.op ≠ 0x02) :
    closeWindow w s = (issueHbm (extAddr e r.pkt.addr) (.atomic w.op (atomWidth w.op r.pkt.len) (winOperand s w)) (.window w.id) none
      (shutWindow w.id s)).2 := by
  have hrd : w.op ≠ 0x01 := by simpa [isAtomWin] using hatom
  rw [← hop] at hrd hwr ⊢
  exact closeWindow_eq_of_toMemory hopen hatom hrs hext he (toMemory_of_atomic x _ _ _ _ _ hhbm hcoh hmir hrd hwr)

theorem combWindowClose_of_open {s : State} {id : Nat} {w : Window} (hw : s.xlt.windows.find? (·.id == id) = some w)
    (hopen : w.isOpen = true) : combWindowClose id s = settleXlt (closeWindow w (atLeast (w.at_ + combWin s) s)) := by
  simp [combWindowClose, hw, hopen]

/-- A window found by its identifier carries it. -/
theorem id_of_find_window {ws : List Window} {id : Nat} {w : Window} (hw : ws.find? (·.id == id) = some w) : w.id = id := by
  simpa using List.find?_some hw

/-! ### The decision on combining (R31, R137) -/

theorem bit_eq_testBit (v n : Nat) : bit v n = v.testBit n := by
  rw [bit, Nat.testBit_eq_decide_div_mod_eq, Nat.shiftRight_eq_div_pow]
  rfl

theorem bit_xor_two_pow (v k n : Nat) : bit (v ^^^ 2 ^ k) n = if n = k then !bit v n else bit v n := by
  simp only [bit_eq_testBit, Nat.testBit_xor, Nat.testBit_two_pow]
  by_cases h : n = k
  · simp [h]
  · simp [h, Ne.symm h]

/-- What a class is to be at the end of a measurement window: its pin, or in AUTO the measured share against the thresholds. -/
def combWant (cfg mode : Nat) (c : CombCount) (now : Bool) : Bool :=
  if mode = 1 then true
  else if mode = 2 then false
  else if c.joinable = 0 then now
  else if bits cfg 31 24 * c.joinable ≤ 256 * c.joined then true
  else if 256 * c.joined < bits cfg 23 16 * c.joinable then false
  else now

/-- A class's mode in SWX_COMB_CFG. -/
def combMode (s : State) (tc : Nat) : Nat := if tc = 1 then bits (reg s 0x0200000C) 1 0 else bits (reg s 0x0200000C) 3 2

theorem combWant_spec (cfg mode : Nat) (c : CombCount) (now : Bool) :
    (mode = 1 → combWant cfg mode c now = true) ∧ (mode = 2 → combWant cfg mode c now = false) ∧
    (mode ≠ 1 → mode ≠ 2 → 0 < c.joinable → bits cfg 31 24 * c.joinable ≤ 256 * c.joined → combWant cfg mode c now = true) ∧
    (mode ≠ 1 → mode ≠ 2 → 0 < c.joinable → 256 * c.joined < bits cfg 31 24 * c.joinable →
      256 * c.joined < bits cfg 23 16 * c.joinable → combWant cfg mode c now = false) ∧
    (mode ≠ 1 → mode ≠ 2 → c.joinable = 0 → combWant cfg mode c now = now) := by
  refine ⟨fun h1 => ?_, fun h2 => ?_, fun h1 h2 hj hon => ?_, fun h1 h2 hj hon hoff => ?_, fun h1 h2 hj => ?_⟩
  · simp [combWant, h1]
  · simp [combWant, h2]
  · simp [combWant, h1, h2, Nat.ne_of_gt hj, hon]
  · simp [combWant, h1, h2, Nat.ne_of_gt hj, Nat.not_le.mpr hon, hoff]
  · simp [combWant, h1, h2, hj]

/-- A class's decision starts its measurement anew and sets its own ON bit only. -/
theorem combDecide_eq (crest tc : Nat) (s : State) : ∃ on changes,
    combDecide crest tc s = { s with
      xlt.comb := mset s.xlt.comb (combKey crest tc) { mgetD s.xlt.comb (combKey crest tc) {} with joinable := 0, joined := 0 }
      xlt.combOn := on, xlt.combChanges := changes } ∧
    ∀ j, bit on j = if j = combKey crest tc then
      combWant (reg s 0x0200000C) (combMode s tc) (mgetD s.xlt.comb (combKey crest tc) {}) (bit s.xlt.combOn j) else bit s.xlt.combOn j := by
  unfold combDecide
  extract_lets k c cfg mode now want
  have hwant : combWant (reg s 0x0200000C) (combMode s tc) (mgetD s.xlt.comb k {}) now = want := rfl
  rw [← show k = combKey crest tc from rfl]
  split
  next hne =>
    have hne : want = !now := by simpa [Bool.eq_not] using hne
    refine ⟨_, _, rfl, fun j => ?_⟩
    rw [bit_xor_two_pow]
    split
    next hj => subst hj; rw [hwant, hne]
    · rfl
  next heq =>
    have heq : want = now := by simpa using heq
    refine ⟨_, _, rfl, fun j => ?_⟩
    split
    next hj => subst hj; rw [hwant, heq]
    · rfl

theorem bit_combDecide (crest tc j : Nat) (s : State) : bit (combDecide crest tc s).xlt.combOn j =
    if j = combKey crest tc then
      combWant (reg s 0x0200000C) (combMode s tc) (mgetD s.xlt.comb (combKey crest tc) {}) (bit s.xlt.combOn j)
    else bit s.xlt.combOn j := by
  obtain ⟨on, changes, h, hon⟩ := combDecide_eq crest tc s
  rw [h, ← hon j]

theorem onlyChanges_combDecide (crest tc : Nat) (s : State) : OnlyChanges [.xlt] s (combDecide crest tc s) := by
  obtain ⟨on, changes, h, -⟩ := combDecide_eq crest tc s
  exact h ▸ onlyChanges_xlt s _

theorem combDecide_ops (crest tc : Nat) (s : State) : (combDecide crest tc s).xlt.ops = s.xlt.ops := by
  obtain ⟨on, changes, h, -⟩ := combDecide_eq crest tc s
  rw [h]

theorem combDecide_reqs (crest tc : Nat) (s : State) : (combDecide crest tc s).xlt.reqs = s.xlt.reqs := by
  obtain ⟨on, changes, h, -⟩ := combDecide_eq crest tc s
  rw [h]

/-- The other classes' measurements are as before. -/
theorem mgetD_comb_combDecide {crest tc k : Nat} (s : State) (hk : k ≠ combKey crest tc) :
    mgetD (combDecide crest tc s).xlt.comb k {} = mgetD s.xlt.comb k {} := by
  obtain ⟨on, changes, h, -⟩ := combDecide_eq crest tc s
  rw [h, mgetD, mget_mset, if_neg hk, mgetD]

theorem OnlyChanges.clock {fs : List Field} {s t : State} (h : OnlyChanges fs s t) (hclock : Field.clock ∉ fs) : t.clock = s.clock :=
  h.2 .clock hclock

theorem OnlyChanges.regs {fs : List Field} {s t : State} (h : OnlyChanges fs s t) (hregs : Field.regs ∉ fs) : t.regs = s.regs :=
  h.2 .regs hregs

theorem OnlyChanges.reg {fs : List Field} {s t : State} (h : OnlyChanges fs s t) (hregs : Field.regs ∉ fs) : reg t = reg s := by
  funext a
  rw [Machine.reg, Machine.reg, h.regs hregs]

theorem combOn_eq_bit (s : State) (crest tc : Nat) : combOn s crest tc = bit s.xlt.combOn (combKey crest tc) := rfl

theorem combKey_ne (c crest : Nat) : combKey c 3 ≠ combKey crest 1 := by simp [combKey]; omega

theorem combKey_inj {c crest tc : Nat} : combKey c tc = combKey crest tc ↔ c = crest := by simp only [combKey]; omega

/-- The state in which a Crest's two classes are decided. -/
def decisionState (crest : Nat) (s : State) : State :=
  let t := atLeast (ceilDiv s.clock.clk 10000 * 10000) s
  { t with xlt.combRun := t.xlt.combRun ||| 2 ^ crest }

theorem combDecision_eq {s : State} {crest : Nat} (hrun : running s = true) (hcrest : crest < 4) :
    combDecision crest s = combDecide crest 3 (combDecide crest 1 (decisionState crest s)) := by
  simp [combDecision, decisionState, hrun, Nat.not_le.mpr hcrest]

theorem onlyChanges_decisionState (crest : Nat) (s : State) : OnlyChanges [.clock, .xlt] s (decisionState crest s) :=
  ((onlyChanges_atLeast _ s).mono (by simp)).trans ((onlyChanges_xlt _ _).mono (by simp))

theorem decisionState_clock (crest : Nat) (s : State) :
    (decisionState crest s).clock = (atLeast (ceilDiv s.clock.clk 10000 * 10000) s).clock := (onlyChanges_xlt _ _).clock (by simp)
theorem decisionState_comb (crest : Nat) (s : State) : (decisionState crest s).xlt.comb = s.xlt.comb := by simp [decisionState]
theorem decisionState_combOn (crest : Nat) (s : State) : (decisionState crest s).xlt.combOn = s.xlt.combOn := by simp [decisionState]

/-- After a Crest's decision each of its classes is as its pin or its measured share wants it, and the other Crests are as before. -/
theorem combOn_combDecision {s : State} {crest c tc : Nat} (hrun : running s = true) (hcrest : crest < 4) (htc : tc = 1 ∨ tc = 3) :
    combOn (combDecision crest s) c tc = if c = crest then
      combWant (reg s 0x0200000C) (combMode s tc) (mgetD s.xlt.comb (combKey crest tc) {}) (combOn s crest tc) else combOn s c tc := by
  have hreg0 := (onlyChanges_decisionState crest s).reg (by simp)
  have hreg1 := (onlyChanges_combDecide crest 1 (decisionState crest s)).reg (by simp)
  have hmode0 : combMode (decisionState crest s) = combMode s := by funext n; simp [combMode, hreg0]
  have hmode1 : combMode (combDecide crest 1 (decisionState crest s)) = combMode s := by funext n; simp [combMode, hreg1, hreg0]
  have hcomb1 := mgetD_comb_combDecide (decisionState crest s) (combKey_ne crest crest)
  rw [combDecision_eq hrun hcrest]
  simp only [combOn_eq_bit, bit_combDecide, hreg0, hreg1, hmode0, hmode1, hcomb1, decisionState_comb, decisionState_combOn]
  obtain rfl | rfl := htc
  · simp only [(combKey_ne crest c).symm, if_false, combKey_inj]
    exact ite_congr rfl (fun hc => hc ▸ rfl) fun _ => rfl
  · simp only [combKey_ne c crest, if_false, combKey_inj]
    exact ite_congr rfl (fun hc => hc ▸ rfl) fun _ => rfl

theorem combDecision_clk {s : State} {crest : Nat} (hrun : running s = true) (hcrest : crest < 4) :
    (combDecision crest s).clock.clk = ceilDiv s.clock.clk 10000 * 10000 := by
  rw [combDecision_eq hrun hcrest, (onlyChanges_combDecide _ _ _).clock (by simp), (onlyChanges_combDecide _ _ _).clock (by simp),
    decisionState_clock, atLeast_grid_clk 10000 (by decide) s]

theorem onlyChanges_combDecision {s : State} {crest : Nat} (hrun : running s = true) (hcrest : crest < 4) :
    OnlyChanges [.clock, .xlt] s (combDecision crest s) := by
  rw [combDecision_eq hrun hcrest]
  exact (onlyChanges_decisionState crest s).trans
    (((onlyChanges_combDecide _ _ _).trans (onlyChanges_combDecide _ _ _)).mono (by simp))

/-- Settles O34: `closeWindow_of_read` and `closeWindow_of_atomic` for a window that reaches WIN, `combOn_combDecision` for a decision. -/
theorem combining : Obligations.Combining := by
  refine ⟨fun s id w hw hopen => ⟨fun hrd => ?_, fun r rs x e hatom hrs hext he hhbm hcoh hmir hop hwr => ?_⟩, fun s crest hrun hcrest => ?_⟩
  · simp [execCombWindowClose, combWindowClose_of_open hw hopen, closeWindow_of_read _ hopen hrd, id_of_find_window hw, shutWindow]
  · obtain rfl := id_of_find_window hw
    have hclose := closeWindow_of_atomic (s := atLeast (w.at_ + combWin s) s) hopen hatom (by simpa using hrs) hext (by simpa using he)
      hhbm (by simpa using hcoh) (by simpa using hmir) hop hwr
    refine ⟨closeWindow w (atLeast (w.at_ + combWin s) s), ?_, ?_, ?_, ?_, ?_⟩
    · rw [exec_combWindowClose, execCombWindowClose, combWindowClose_of_open hw hopen]
    · rw [hclose]
      exact ((onlyChanges_atLeast _ s).mono (by simp)).trans
        (((onlyChanges_shutWindow _ _).trans (onlyChanges_issueHbm _ _ _ _ _)).mono (by simp))
    · simp [hclose, issueHbm, newId, shutWindow]
    · simp [hclose, issueHbm, newId, shutWindow]
    · simp [hclose, issueHbm, newId, shutWindow, winOperand]
  · refine ⟨combDecision crest s, rfl, onlyChanges_combDecision hrun hcrest, combDecision_clk hrun hcrest, ?_, ?_,
      fun c tc htc hc => ?_, fun tc htc => ?_⟩
    · simp [combDecision_eq hrun hcrest, combDecide_ops, decisionState]
    · simp [combDecision_eq hrun hcrest, combDecide_reqs, decisionState]
    · rw [combOn_combDecision hrun hcrest htc, if_neg hc]
    · rw [combOn_combDecision hrun hcrest htc, if_pos rfl]
      exact combWant_spec _ _ _ _

/-! ### The rates of the ports (R31, R138) -/

theorem keysRise_pairwise {α : Type} : ∀ {m : SMap α}, keysRise m = true → (m.map (·.1)).Pairwise (· < ·)
  | [], _ => .nil
  | [_], _ => List.pairwise_singleton _ _
  | a :: b :: t, h => by
    simp only [keysRise, Bool.and_eq_true, decide_eq_true_eq] at h
    have ih := keysRise_pairwise h.2
    refine .cons (fun k hk => ?_) ih
    obtain rfl | hk := List.mem_cons.mp hk
    · exact h.1
    · exact Nat.lt_trans h.1 (List.rel_of_pairwise_cons ih hk)

theorem keysRise_nodup {α : Type} {m : SMap α} (h : keysRise m = true) : (m.map (·.1)).Nodup :=
  (keysRise_pairwise h).imp Nat.ne_of_lt

theorem mem_keys_of_mget {α : Type} {m : SMap α} {k : Nat} {v : α} (h : mget m k = some v) : k ∈ m.map (·.1) := by
  induction m with
  | nil => simp [mget] at h
  | cons p m ih =>
    rw [mget] at h
    split at h
    next hk => simp [hk]
    · exact List.mem_cons_of_mem _ (ih h)

/-- One port's step of the rate adaptation. -/
def adjustPort (lp : Nat) (s : State) : State :=
  let t := { s with xlt.buckets := mset s.xlt.buckets lp { bucket s lp with rate := newRate s lp } }
  if newRate s lp = effRate s lp then t else count 0x03000460 t

/-- The ports whose rates are adapted: valid ACCEL bindings. -/
def ratedPorts (s : State) : List Nat := (s.lports.map (·.1)).filter fun l => isLport s l && modeOf s l == 1 && epValid s l

theorem adjustPort_xlt (lp : Nat) (s : State) :
    (adjustPort lp s).xlt = { s.xlt with buckets := mset s.xlt.buckets lp { bucket s lp with rate := newRate s lp } } := by
  unfold adjustPort
  split <;> rfl

theorem onlyChanges_adjustPort (lp : Nat) (s : State) : OnlyChanges [.xlt, .ctrs] s (adjustPort lp s) := by
  unfold adjustPort
  extract_lets _ _ t
  have h : OnlyChanges [.xlt, .ctrs] s t := (onlyChanges_xlt s _).mono (by simp)
  split
  · exact h
  · exact h.trans ((onlyChanges_countN _ _ _).mono (by simp))

/-- A port's new rate is a function of the registers, the switch core's load and the rate in force. -/
theorem newRate_congr {s t : State} {lp : Nat} (hregs : t.regs = s.regs) (hsw : t.sw = s.sw) (heff : effRate t lp = effRate s lp) :
    newRate t lp = newRate s lp := by
  have hreg : reg t = reg s := by funext a; rw [reg, reg, hregs]
  have hused : poolUsed t (crestOf lp) = poolUsed s (crestOf lp) := by rw [poolUsed, poolUsed, hsw]
  have hsize : poolSize t = poolSize s := by simp only [poolSize, carveCredit, carveResv, carve, reg64, hreg]
  have hmin : epRateMin t lp = epRateMin s lp := by rw [epRateMin, epRateMin, epWord, epWord, hreg]
  have hmax : epRateMax t lp = epRateMax s lp := by rw [epRateMax, epRateMax, epWord, epWord, hreg]
  unfold newRate
  rw [hreg, heff, hused, hsize, hmin, hmax]

theorem effRate_congr {s t : State} {lp : Nat} (hregs : t.regs = s.regs) (hfixed : t.xlt.rateFixed = s.xlt.rateFixed)
    (hb : mget t.xlt.buckets lp = mget s.xlt.buckets lp) : effRate t lp = effRate s lp := by
  simp only [effRate, epRateMax, epWord, reg, hregs, hfixed, hb]

/-- Another port's step leaves a port's bucket and its new rate. -/
theorem adjustPort_other {lp l : Nat} (s : State) (h : lp ≠ l) :
    mget (adjustPort l s).xlt.buckets lp = mget s.xlt.buckets lp ∧ newRate (adjustPort l s) lp = newRate s lp := by
  have hb : mget (adjustPort l s).xlt.buckets lp = mget s.xlt.buckets lp := by rw [adjustPort_xlt, mget_mset, if_neg h]
  have hfixed : (adjustPort l s).xlt.rateFixed = s.xlt.rateFixed := by rw [adjustPort_xlt]
  have hframe := onlyChanges_adjustPort l s
  have hregs := hframe.regs (by simp)
  exact ⟨hb, newRate_congr hregs (hframe.2 .sw (by simp)) (effRate_congr hregs hfixed hb)⟩

theorem each_adjustPort_notMem {lp : Nat} {ls : List Nat} (s : State) (h : lp ∉ ls) :
    mget (each ls adjustPort s).xlt.buckets lp = mget s.xlt.buckets lp := by
  induction ls generalizing s with
  | nil => rfl
  | cons l ls ih =>
    rw [List.mem_cons, not_or] at h
    exact (ih (adjustPort l s) h.2).trans (adjustPort_other s h.1).1

/-- After the steps of distinct ports each of them has the new rate that it had coming before them. -/
theorem each_adjustPort_rate {lp : Nat} {ls : List Nat} (s : State) (hnodup : ls.Nodup) (h : lp ∈ ls) :
    (mget (each ls adjustPort s).xlt.buckets lp).map (·.rate) = some (newRate s lp) := by
  induction ls generalizing s with
  | nil => simp at h
  | cons l ls ih =>
    rw [List.nodup_cons] at hnodup
    change (mget (each ls adjustPort (adjustPort l s)).xlt.buckets lp).map (·.rate) = _
    by_cases hl : lp = l
    · subst hl
      rw [each_adjustPort_notMem _ hnodup.1, adjustPort_xlt, mget_mset, if_pos rfl]
      rfl
    · rw [ih _ hnodup.2 (List.mem_of_ne_of_mem hl h), (adjustPort_other s hl).2]

/-- The ports' steps leave the requests and the operations in flight. -/
theorem each_adjustPort_flight (ls : List Nat) (s : State) :
    (each ls adjustPort s).xlt.reqs = s.xlt.reqs ∧ (each ls adjustPort s).xlt.ops = s.xlt.ops := by
  induction ls generalizing s with
  | nil => exact ⟨rfl, rfl⟩
  | cons l ls ih =>
    have h := ih (adjustPort l s)
    rw [adjustPort_xlt] at h
    exact h

theorem ratedPorts_nodup {s : State} (h : keysRise s.lports = true) : (ratedPorts s).Nodup := (keysRise_nodup h).filter _

theorem mem_ratedPorts {s : State} {lp : Nat} {l : LPort} (hl : mget s.lports lp = some l) (hlp : isLport s lp = true)
    (hmode : modeOf s lp = 1) (hep : epValid s lp = true) : lp ∈ ratedPorts s := by
  simp [ratedPorts, List.mem_filter, mem_keys_of_mget hl, hlp, hmode, hep]

/-- The state in which the rates are adapted. -/
def rateState (s : State) : State := atLeast (ceilDiv s.clock.clk 5000 * 5000) s

/-- The rates adapted, before the mode comes into force. -/
def ratesDone (s : State) : State :=
  if bit (reg s 0x03000004) 0 then rateState s else each (ratedPorts (rateState s)) adjustPort (rateState s)

theorem rateAdjust_eq {s : State} (hrun : running s = true) :
    rateAdjust s = { ratesDone s with xlt.rateFixed := bit (reg s 0x03000004) 0, xlt.rateRun := true } := by
  simp only [rateAdjust, hrun, reg_atLeast]
  rfl

theorem ratesDone_of_fixed {s : State} (h : bit (reg s 0x03000004) 0 = true) : ratesDone s = rateState s := if_pos h

theorem ratesDone_of_auto {s : State} (h : bit (reg s 0x03000004) 0 = false) :
    ratesDone s = each (ratedPorts (rateState s)) adjustPort (rateState s) := if_neg (by simp [h])

theorem onlyChanges_ratesDone (s : State) : OnlyChanges [.xlt, .ctrs] (rateState s) (ratesDone s) := by
  unfold ratesDone
  split
  · exact .refl _ _
  · exact onlyChanges_each onlyChanges_adjustPort _ _

theorem ratesDone_clk (s : State) : (ratesDone s).clock.clk = ceilDiv s.clock.clk 5000 * 5000 := by
  rw [(onlyChanges_ratesDone s).clock (by simp)]
  exact atLeast_grid_clk 5000 (by decide) s

theorem ratesDone_flight (s : State) : (ratesDone s).xlt.reqs = s.xlt.reqs ∧ (ratesDone s).xlt.ops = s.xlt.ops := by
  have hstate : (rateState s).xlt = s.xlt := atLeast_xlt _ s
  rw [← hstate]
  unfold ratesDone
  generalize rateState s = t
  split
  · exact ⟨rfl, rfl⟩
  · exact each_adjustPort_flight _ t

theorem newRate_rateState (s : State) (lp : Nat) : newRate (rateState s) lp = newRate s lp := by
  have hregs : (rateState s).regs = s.regs := atLeast_regs _ s
  have hxlt : (rateState s).xlt = s.xlt := atLeast_xlt _ s
  exact newRate_congr hregs (atLeast_sw _ s) (effRate_congr hregs (by rw [hxlt]) (by rw [hxlt]))

theorem mem_ratedPorts_rateState {s : State} {lp : Nat} {l : LPort} (hl : mget s.lports lp = some l) (hlp : isLport s lp = true)
    (hmode : modeOf s lp = 1) (hep : epValid s lp = true) : lp ∈ ratedPorts (rateState s) := by
  have hreg : reg (rateState s) = reg s := reg_atLeast _ s
  refine mem_ratedPorts (l := l) ?_ ?_ ?_ ?_
  · rw [rateState, atLeast_lports, hl]
  · simpa only [isLport, width, portCfg, hreg] using hlp
  · simpa only [modeOf, portCfg, hreg] using hmode
  · simpa only [epValid, epWord, hreg] using hep

theorem ratesDone_rate {s : State} {lp : Nat} {l : LPort} (hrise : keysRise s.lports = true)
    (hauto : bit (reg s 0x03000004) 0 = false) (hl : mget s.lports lp = some l) (hlp : isLport s lp = true) (hmode : modeOf s lp = 1)
    (hep : epValid s lp = true) : (mget (ratesDone s).xlt.buckets lp).map (·.rate) = some (newRate s lp) := by
  rw [ratesDone_of_auto hauto, each_adjustPort_rate _ (ratedPorts_nodup (by simpa [rateState] using hrise))
    (mem_ratedPorts_rateState hl hlp hmode hep), newRate_rateState]

/-! ### The reply cache (R142) -/

theorem replyCacheExpiry_of_found {s : State} {crest src tag : Nat} {c : Cached}
    (hc : s.xlt.cache.find? (fun c => c.crest == crest && c.src == src && c.tag == tag) = some c) :
    replyCacheExpiry crest src tag s = { atLeast (c.at_ + e2eHold s) s with xlt.cache := s.xlt.cache.filter (· != c) } := by
  simp [replyCacheExpiry, hc]

/-! ### The drain timeout (R143) -/

/-- Requests in flight end, and nothing else happens to the clock, HBM, the tracker and the operations at the memory units. -/
structure OnlyEndsReqs (s t : State) : Prop where
  clock : t.clock = s.clock
  mem : t.mem = s.mem
  poison : t.poison = s.poison
  trays : t.xlt.trays = s.xlt.trays
  ops : t.xlt.ops = s.xlt.ops
  reqs : ∀ r ∈ t.xlt.reqs, ∃ q ∈ s.xlt.reqs, q.id = r.id ∧ q.ext = r.ext

theorem OnlyEndsReqs.of_same {s t : State} (hclock : t.clock = s.clock) (hmem : t.mem = s.mem) (hpoison : t.poison = s.poison)
    (htrays : t.xlt.trays = s.xlt.trays) (hops : t.xlt.ops = s.xlt.ops) (hreqs : t.xlt.reqs = s.xlt.reqs) : OnlyEndsReqs s t :=
  ⟨hclock, hmem, hpoison, htrays, hops, fun r hr => ⟨r, hreqs ▸ hr, rfl, rfl⟩⟩

theorem OnlyEndsReqs.refl (s : State) : OnlyEndsReqs s s := .of_same rfl rfl rfl rfl rfl rfl

theorem OnlyEndsReqs.trans {s t u : State} (h : OnlyEndsReqs s t) (k : OnlyEndsReqs t u) : OnlyEndsReqs s u where
  clock := k.clock.trans h.clock
  mem := k.mem.trans h.mem
  poison := k.poison.trans h.poison
  trays := k.trays.trans h.trays
  ops := k.ops.trans h.ops
  reqs := fun r hr => by
    obtain ⟨q, hq, hid, hext⟩ := k.reqs r hr
    obtain ⟨p, hp, hid', hext'⟩ := h.reqs q hq
    exact ⟨p, hp, hid'.trans hid, hext'.trans hext⟩

theorem each_onlyEndsReqs {α : Type} {f : α → State → State} {l : List α} (h : ∀ a ∈ l, ∀ t, OnlyEndsReqs t (f a t)) (s : State) :
    OnlyEndsReqs s (each l f s) := by
  induction l generalizing s with
  | nil => exact .refl s
  | cons a l ih => exact (h a (by simp) s).trans (ih (fun b hb => h b (by simp [hb])) (f a s))

theorem OnlyEndsReqs.ite {c : Prop} [Decidable c] {s t u : State} (ht : OnlyEndsReqs s t) (hu : OnlyEndsReqs s u) :
    OnlyEndsReqs s (if c then t else u) := by
  split
  · exact ht
  · exact hu

theorem count_onlyEndsReqs (a : Nat) (s : State) : OnlyEndsReqs s (count a s) := .of_same rfl rfl rfl rfl rfl rfl

theorem cachePut_onlyEndsReqs (c : Cached) (s : State) : OnlyEndsReqs s (cachePut c s) := .of_same rfl rfl rfl rfl rfl rfl

theorem respond_onlyEndsReqs (lp tc : Nat) (p : Kmt) (status : Nat) (payload : List Byte) (m : Option Nat) (cmb : Bool) (gate : Gate)
    (s : State) : OnlyEndsReqs s (respond lp tc p status payload m cmb gate s) := .of_same rfl rfl rfl rfl rfl rfl

/-- A request goes, under its identifier, from the requests in flight and from what the others wait for. -/
def dropReq (id : Nat) (s : State) : State :=
  { s with xlt.reqs := (s.xlt.reqs.filter (·.id != id)).map fun q => { q with waits := q.waits.filter (· != id) } }

theorem mem_dropReq {id : Nat} {s : State} {r : Req} (hr : r ∈ (dropReq id s).xlt.reqs) :
    r.id ≠ id ∧ ∃ q ∈ s.xlt.reqs, q.id = r.id ∧ q.ext = r.ext := by
  obtain ⟨q, hq, rfl⟩ := List.mem_map.mp hr
  obtain ⟨hq, hne⟩ := List.mem_filter.mp hq
  exact ⟨by simpa using hne, q, hq, rfl, rfl⟩

theorem dropReq_onlyEndsReqs (id : Nat) (s : State) : OnlyEndsReqs s (dropReq id s) :=
  ⟨rfl, rfl, rfl, rfl, rfl, fun _ hr => (mem_dropReq hr).2⟩

/-- A request that is found goes first; its answer and its reply-cache entry end no other. -/
theorem endReq_of_found {s : State} {id : Nat} {r : Req} (status : Nat) (payload : List Byte) (m : Option Nat) (cmb term : Bool)
    (gate : Gate) (hr : findReq s id = some r) : OnlyEndsReqs (dropReq id s) (endReq id status payload m cmb term gate s) := by
  unfold endReq
  split
  next hnone => simp [hr] at hnone
  next r' _ =>
  extract_lets _ s1 s2 _ s3 s4
  have h1 : OnlyEndsReqs (dropReq id s) s1 := .refl _
  have h2 : OnlyEndsReqs s1 s2 := (cachePut_onlyEndsReqs _ _).ite (.refl _)
  have h3 : OnlyEndsReqs s2 s3 := by
    unfold s3
    split
    · exact .refl _
    · exact .of_same rfl rfl rfl rfl rfl rfl
  have h4 : OnlyEndsReqs s3 s4 := (count_onlyEndsReqs _ _).ite ((count_onlyEndsReqs _ _).ite (.refl _))
  exact (((h1.trans h2).trans h3).trans h4).trans (respond_onlyEndsReqs ..)

theorem endReq_of_none {s : State} {id : Nat} (status : Nat) (payload : List Byte) (m : Option Nat) (cmb term : Bool) (gate : Gate)
    (hr : findReq s id = none) : endReq id status payload m cmb term gate s = s := by
  simp only [endReq, hr]

theorem endReq_onlyEndsReqs (id status : Nat) (payload : List Byte) (m : Option Nat) (cmb term : Bool) (gate : Gate) (s : State) :
    OnlyEndsReqs s (endReq id status payload m cmb term gate s) := by
  cases hr : findReq s id with
  | none => rw [endReq_of_none _ _ _ _ _ _ hr]; exact .refl s
  | some r => exact (dropReq_onlyEndsReqs id s).trans (endReq_of_found _ _ _ _ _ _ hr)

/-- No request of the identifier is in flight any more. -/
theorem id_ne_of_mem_endReq {id status : Nat} {payload : List Byte} {m : Option Nat} {cmb term : Bool} {gate : Gate} {s : State} {r : Req}
    (hr : r ∈ (endReq id status payload m cmb term gate s).xlt.reqs) : r.id ≠ id := by
  cases hfind : findReq s id with
  | none =>
    rw [endReq_of_none _ _ _ _ _ _ hfind] at hr
    simpa using List.find?_eq_none.mp hfind r hr
  | some q =>
    obtain ⟨p, hp, hid, -⟩ := (endReq_of_found _ _ _ _ _ _ hfind).reqs r hr
    exact hid ▸ (mem_dropReq hp).1

/-- Once the requests of a list have been ended, none of their identifiers is in flight. -/
theorem id_ne_of_mem_each_endReq {l : List Req} {status : Nat} {s : State} {r a : Req}
    (hr : r ∈ (each l (fun q => endReq q.id status [] none false true none) s).xlt.reqs) (ha : a ∈ l) : r.id ≠ a.id := by
  induction l generalizing s with
  | nil => simp at ha
  | cons b l ih =>
    change r ∈ (each l _ (endReq b.id status [] none false true none s)).xlt.reqs at hr
    obtain rfl | ha := List.mem_cons.mp ha
    · obtain ⟨q, hq, hid, -⟩ := (each_onlyEndsReqs (fun c _ t => endReq_onlyEndsReqs c.id status [] none false true none t) _).reqs r hr
      exact hid ▸ id_ne_of_mem_endReq hq
    · exact ih hr ha

theorem memDone_onlyEndsReqs {why : Why} (tag status : Nat) (data : List Byte) (m : Option Nat) (gate : Gate) (s : State)
    (hwhy : ∃ i, why = .req i) : OnlyEndsReqs s (memDone why tag status data m gate s) := by
  obtain ⟨i, rfl⟩ := hwhy
  exact endReq_onlyEndsReqs i status data m false false gate s

theorem dropWindows_onlyEndsReqs (s : State) : OnlyEndsReqs s (dropWindows s) := .of_same rfl rfl rfl rfl rfl rfl

theorem fillPiece_onlyEndsReqs (id tag status : Nat) (data : List Byte) (s : State) : OnlyEndsReqs s (fillPiece id tag status data s) :=
  .of_same rfl rfl rfl rfl rfl rfl

theorem setDir_onlyEndsReqs (d : Dir) (s : State) : OnlyEndsReqs s { s with dir := d } := .of_same rfl rfl rfl rfl rfl rfl

theorem giveTo_unit_onlyEndsReqs (r tag status : Nat) (data : List Byte) (m : Option Nat) (gate : Gate) (s : State) :
    OnlyEndsReqs s (giveTo (.unit r) tag status data m gate s) := by
  rw [giveTo]
  exact ((count_onlyEndsReqs _ s).ite (.refl s)).trans (fillPiece_onlyEndsReqs ..)

theorem endUnitReads_onlyEndsReqs (x : Nat) (s : State) : OnlyEndsReqs s (endUnitReads x s) := by
  unfold endUnitReads
  split
  · exact .refl s
  next e _ =>
  refine each_onlyEndsReqs (fun m hm t => ?_) s
  obtain ⟨-, hm⟩ := List.mem_filter.mp hm
  split at hm
  next w hw =>
    rw [hw]
    exact (setDir_onlyEndsReqs _ t).trans (giveTo_unit_onlyEndsReqs ..)
  · simp at hm

/-- Tracker entries and operations at the memory units go, those that `tray` and `ops` name. -/
def dropTracked (tray : TrayReq → Bool) (ops : List HbmOp) (s : State) : State :=
  { s with xlt.trays := s.xlt.trays.filter fun r => !tray r, xlt.ops := s.xlt.ops.filter (!ops.contains ·) }

theorem dropTracked_onlyEndsReqs (tray : TrayReq → Bool) (ops : List HbmOp) {s t : State} (h : OnlyEndsReqs s t) :
    OnlyEndsReqs (dropTracked tray ops s) (dropTracked tray ops t) where
  clock := h.clock
  mem := h.mem
  poison := h.poison
  trays := congrArg (List.filter _) h.trays
  ops := congrArg (List.filter _) h.ops
  reqs := h.reqs

/-- Where the entries and operations named belong to requests, they go, and with them requests only: those of `p` among them. -/
theorem endInFlight_spec {p : Req → Bool} {tray : TrayReq → Bool} {ops : List HbmOp} {s : State} (status : Nat)
    (htray : ∀ r ∈ s.xlt.trays, tray r = true → ∃ i, r.why = .req i) (hops : ∀ o ∈ ops, ∃ i, o.why = .req i) :
    OnlyEndsReqs (dropTracked tray ops s) (endInFlight p tray ops status s) ∧
    ∀ r ∈ (endInFlight p tray ops status s).xlt.reqs, ∀ q ∈ s.xlt.reqs, p q = true → r.id ≠ q.id := by
  unfold endInFlight
  extract_lets s1 ts _ s2 s3 s4
  have h1 : OnlyEndsReqs s s1 := each_onlyEndsReqs (fun r _ t => endReq_onlyEndsReqs r.id status [] none false true none t) s
  have h3 : OnlyEndsReqs s2 s3 := each_onlyEndsReqs (fun r hr t => by
    obtain ⟨hr, htr⟩ := List.mem_filter.mp hr
    exact memDone_onlyEndsReqs _ _ _ _ _ t (htray r (h1.trays ▸ hr) htr)) s2
  have h4 : OnlyEndsReqs s3 s4 := each_onlyEndsReqs (fun o ho t => memDone_onlyEndsReqs _ _ _ _ _ t (hops o ho)) s3
  have hrest : OnlyEndsReqs s2 (dropWindows s4) := (h3.trans h4).trans (dropWindows_onlyEndsReqs s4)
  refine ⟨(dropTracked_onlyEndsReqs tray ops h1).trans hrest, fun r hr q hq hp => ?_⟩
  obtain ⟨r1, hr1, hid, -⟩ := hrest.reqs r hr
  exact hid ▸ id_ne_of_mem_each_endReq hr1 (List.mem_filter.mpr ⟨hq, hp⟩)

/-- Requests in flight on the extent, in the tracker, a TFENCE apart. -/
def trayOn (x : Nat) (r : TrayReq) : Bool := r.ext == some x && r.why != .fence x

/-- What a drain timeout leaves before the transport goes on. -/
def drained (x : Nat) (s : State) : State := endUnitReads x (endInFlight (·.ext == some x) (trayOn x) (extOps s x) 0x14 s)

@[simp] theorem extOps_atLeast (t : Nat) (s : State) (x : Nat) : extOps (atLeast t s) x = extOps s x := by simp [extOps]

theorem drainTimeout_eq {s : State} {x : Nat} {v : Revoke} (hv : s.xlt.revokes.find? (·.ext == x) = some v) (hfence : v.fencing = false)
    (hnew : ∀ r ∈ s.xlt.trays, r.ext = some x → r.reissued = false) :
    drainTimeout x s = settleXlt (drained x (atLeast (v.at_ + drainNs s) s)) := by
  have hnone : (s.xlt.trays.filter fun r => r.ext == some x && r.reissued && decide (r.sentAt + trayTmoNs (atLeast (v.at_ + drainNs s) s) ≤
      v.at_ + drainNs s)) = [] := by
    refine List.filter_eq_nil_iff.mpr fun r hr hdue => ?_
    simp only [Bool.and_eq_true, beq_iff_eq] at hdue
    obtain ⟨⟨hext, hre⟩, -⟩ := hdue
    simp [hnew r hr hext] at hre
  simp only [drainTimeout, hv, hfence, Bool.false_eq_true, if_false, atLeast_xlt, hnone]
  rfl

theorem drained_spec {s : State} {x : Nat} (htrays : ∀ r ∈ s.xlt.trays, r.ext = some x → ∃ i, r.why = .req i)
    (hops : ∀ o ∈ extOps s x, ∃ i, o.why = .req i) :
    OnlyEndsReqs (dropTracked (trayOn x) (extOps s x) s) (drained x s) ∧ ∀ r ∈ (drained x s).xlt.reqs, r.ext ≠ some x := by
  have htray : ∀ r ∈ s.xlt.trays, trayOn x r = true → ∃ i, r.why = .req i := fun r hr hon => by
    obtain ⟨hext, -⟩ := (Bool.and_eq_true _ _).mp hon
    exact htrays r hr (beq_iff_eq.mp hext)
  obtain ⟨hflight, hgone⟩ := endInFlight_spec (p := (·.ext == some x)) 0x14 htray hops
  have hunit := endUnitReads_onlyEndsReqs x (endInFlight (·.ext == some x) (trayOn x) (extOps s x) 0x14 s)
  refine ⟨hflight.trans hunit, fun r hr hext => ?_⟩
  obtain ⟨r1, hr1, hid1, hext1⟩ := hunit.reqs r hr
  obtain ⟨q, hq, hid, hextq⟩ := hflight.reqs r1 hr1
  exact hgone r1 hr1 q hq (by simp [hextq, hext1, hext]) hid.symm

theorem mem_trays_dropTracked {s : State} {x : Nat} {ops : List HbmOp} (htrays : ∀ r ∈ s.xlt.trays, r.ext = some x → ∃ i, r.why = .req i)
    {r : TrayReq} (hr : r ∈ (dropTracked (trayOn x) ops s).xlt.trays) : r ∈ s.xlt.trays ∧ r.ext ≠ some x := by
  obtain ⟨hr, hon⟩ := List.mem_filter.mp hr
  refine ⟨hr, fun hext => ?_⟩
  obtain ⟨i, hwhy⟩ := htrays r hr hext
  simp [trayOn, hext, hwhy] at hon

/-- Settles O35: `rateAdjust_eq` with `ratesDone_rate` for the rates, `drainTimeout_eq` with `drained_spec` for the drain timeout. -/
theorem transportTimers : Obligations.TransportTimers := by
  refine ⟨fun s hrun hrise => ⟨rateAdjust s, rfl, ?_, ?_, ?_, ?_, ?_, fun hfixed => ?_, fun lp l hauto hl hlp hmode hep => ?_⟩,
    fun s => ⟨fun crest src tag c hc => ?_, fun x v hrun hv hfence htrays hops => ?_⟩⟩
  · rw [rateAdjust_eq hrun]
    exact ((onlyChanges_atLeast _ s).mono (by simp)).trans
      (((onlyChanges_ratesDone s).mono (by simp)).trans ((onlyChanges_xlt _ _).mono (by simp)))
  · rw [rateAdjust_eq hrun]
    exact ratesDone_clk s
  · rw [rateAdjust_eq hrun]
    exact (ratesDone_flight s).1
  · rw [rateAdjust_eq hrun]
    exact (ratesDone_flight s).2
  · rw [rateAdjust_eq hrun]
  · simp [rateAdjust_eq hrun, ratesDone_of_fixed hfixed, rateState]
  · rw [rateAdjust_eq hrun]
    exact ratesDone_rate hrise hauto hl hlp hmode hep
  · rw [exec_replyCacheExpiry, execReplyCacheExpiry, replyCacheExpiry_of_found hc]
  · have hwhy : ∀ r ∈ s.xlt.trays, r.ext = some x → ∃ i, r.why = .req i := fun r hr hext => (htrays r hr hext).2
    obtain ⟨hends, hgone⟩ := drained_spec (s := atLeast (v.at_ + drainNs s) s) (x := x) (by simpa using hwhy) (by simpa using hops)
    refine ⟨drained x (atLeast (v.at_ + drainNs s) s), ?_, ?_, ⟨fun a => ?_, ?_⟩, fun r hr => ⟨hgone r hr, ?_⟩, fun r hr => ?_, ?_⟩
    · rw [exec_drainTimeout, execDrainTimeout, whenRunning, if_pos hrun,
        drainTimeout_eq hv hfence fun r hr hext => (htrays r hr hext).1]
    · rw [hends.clock]
      exact atLeast_clk _ s
    · rw [hends.mem]
      exact congrArg (memByte · a) (atLeast_mem _ s)
    · exact hends.poison.trans (atLeast_poison _ s)
    · obtain ⟨q, hq, hid, -⟩ := hends.reqs r hr
      exact ⟨q, by simpa [dropTracked] using hq, hid⟩
    · rw [hends.trays] at hr
      simpa using mem_trays_dropTracked (by simpa using hwhy) hr
    · rw [hends.ops]
      simp [dropTracked]

end Sys2Proof.Machine
end
